-- ==== Sys2Proof/Word.lean ====
section
/-! DEFINITION. The words of the machine: bytes, 32-bit stored words and FP32 bit patterns (R4, R36). -/

set_option Elab.async false

namespace Sys2Proof

/-- One byte. -/
abbrev Byte := BitVec 8

/-- The 32-bit data part of a stored unit (R261). -/
abbrev Word := BitVec 32

/-- An IEEE 754 binary32 bit pattern (R36). -/
abbrev F32 := BitVec 32

end Sys2Proof
end

