-- ==== Sys2Proof/Syntax.lean ====
section
/-! DEFINITION. The commands of the block, one constructor per row of the opcode table, and the things they carry. -/

namespace Sys2Proof.Machine

/-- An array of a core slot (R87). -/
inductive Arr where
  | f | b0 | b1 | t
deriving DecidableEq, Repr

end Sys2Proof.Machine

namespace Sys2Proof

/-- A stream: F- or B-stream of a core slot, U-stream of a camber unit (R120, R122). -/
inductive SRef where
  | f (core : Nat) | b (core : Nat) | u (unit : Nat)
deriving DecidableEq, Repr

/-- A page copy's page end and its other end (R188): page window address, first part row, rows and bytes a row, the
local address and stride of the other end, and the pier it is on where that is another pier. A write whose other end
is another pier brings the rows with it. -/
structure PagePart where
  win : Nat
  row0 : Nat
  rows : Nat
  rowBytes : Nat
  other : Nat
  stride : Nat
  pier : Option Nat := none
  data : List (List (Byte × Bool)) := []
deriving DecidableEq, Repr

/-! ### The host -/

/-- A command packet as it arrives on E0 or E1 (R341): the datagram's source and the fields of its header, and the
bytes that follow the header. The opcode is the row's. -/
structure HostCmd where
  port : Nat := 0
  srcIp : Nat := 0
  srcPort : Nat := 0
  version : Nat := 1
  flags : Nat := 0
  status : Nat := 0
  session : Nat := 0
  seq : Nat := 0
  cmdId : Nat := 0
  plen : Nat := 0
  pier : Nat := 0xFFF
  reserved : Nat := 0
  tag : Nat := 0
  block : List Byte := []
deriving DecidableEq, Repr

/-! ### The fabric -/

/-- What an IDENT flit tells (R287): device serial, pier ID, port, stepping and usable lanes. -/
structure Ident where
  serial : Nat
  pier : Nat
  port : Nat
  stepping : Nat
  lanes : Nat
deriving DecidableEq, Repr

/-- What a pier reports of itself to the root (R290): its record's fields and its sixteen link map entries, and beside
them the device serial that IDENT gave for each port's neighbour, 0 for none. -/
structure PierMap where
  serial : Nat
  pier : Nat
  x : Nat
  y : Nat
  z : Nat
  spare : Bool
  links : List Nat
  near : List Nat := []
deriving DecidableEq, Repr

/-- What piers compare at JOB_START (R360): plan identity, seed, steps, hang interval, debug, both maps, the sections
as destination, length and CRC, and the owner binding. -/
structure JobRecord where
  planId : Nat
  seed : Nat
  steps : Nat
  hangMs : Nat
  debug : Bool
  members : List Nat
  spares : List Nat
  sections : List (Nat × Nat × Nat)
  owner : Nat
deriving DecidableEq, Repr

/-- One intact copy a pier reports: its step, its leaf, whether it is the buddy's copy, and its shards' digests (R417,
R418). -/
structure CopyRec where
  step : Nat
  leaf : Nat
  buddy : Bool
  digests : List Nat
deriving DecidableEq, Repr

/-- Messages between firmware processors (R274). Their payload encoding is not given; a CTRL flit carries the message
itself. -/
inductive CtrlMsg where
  /-- roll call announcement: root serial, mode, extents, spare base, and the sender's coordinates (R289) -/
  | announce (root mode ex ey ez spareBase x y z : Nat)
  /-- an announcement over an express port, to a pier that may be a spare: its anchor and the anchor's port (R289) -/
  | offer (root mode ex ey ez spareBase anchor anchorPort x y z : Nat)
  /-- a pier's link map, on its way to the root -/
  | linkMap (m : PierMap)
  /-- the root's whole link map, from which every pier computes its table, installed by an epoch change (R284, R290) -/
  | install (root mode ex ey ez : Nat) (maps : List PierMap)
  /-- an epoch change starts: injection stops (R284) -/
  | stop
  /-- a pier's retry buffers and input buffers are empty (R284) -/
  | drained (pier : Nat)
  /-- a vote record (R231) -/
  | vote (rec : Nat)
  /-- a gate result record (R232, R234) -/
  | result (rec : Nat)
  /-- a compute-reset notice (R396) -/
  | notice (pier : Nat)
  /-- a pier under notice rejoins (R398) -/
  | rejoin (pier : Nat)
  /-- a page copy for this pier's page manager (R188) -/
  | pageWrite (p : PagePart)
  | pageRead (p : PagePart)
  | lease (win dst pier : Nat)
  | release (win : Nat)
  | clear (win : Nat)
  /-- the lane-drop handshake: lanes left, and the reason of the drop (R280) -/
  | lanes (mask reason : Nat)
  /-- JOB_START's exchange (R360), and its end -/
  | jobStart (pier : Nat) (r : JobRecord)
  | jobEnd (status first : Nat)
  /-- a pier added to the job as a spare (R361) -/
  | jobAssign (pier : Nat)
  /-- a pier is asked whether it can join a job, and answers (R361) -/
  | assignQuery (pier planId seed owner : Nat)
  | assignAnswer (pier : Nat) (ok : Bool)
  /-- the job a pier joins: what JOB_START compared, its first step and the step in flight (R361) -/
  | jobJoin (r : JobRecord) (start decided : Nat)
  /-- a span descriptor to be installed at its index with the member handles it names, 0 to delete it, and its
  acknowledgement (R23) -/
  | span (index desc : Nat) (members : List Nat)
  | spanAck (pier index : Nat)
  /-- an abort of the job, carried over barrier_span (R364) -/
  | jobAbort
  /-- readiness for a falsework generation (R412) -/
  | fwReady (pier step : Nat) (ready : Bool)
  /-- a generation's shards are complete on a pier (R415) -/
  | fwComplete (pier step : Nat)
  /-- copies are to be verified: for the loss of a pier, or for a restore of a step whose low 32 bits are given -/
  | verify (lost : Option Nat) (want : Nat)
  /-- the intact copies on a pier (R417, R418) -/
  | copies (pier : Nat) (rs : List CopyRec)
  /-- the generation chosen, the leaves to be restored from their buddy copies, and the dispute to settle: its step, and
  for each leaf whose copies differ the digests of both (R407, R417, R418) -/
  | restore (g : Nat) (fromBuddy : List Nat) (dispute : Option Nat) (digests : List (Nat × List Nat × List Nat))
  | restoreDone (pier : Nat)
  /-- a buddy shard is to be sent again, or has failed (R415) -/
  | shardAgain (shard : Nat)
  | shardFailed (pier : Nat)
  /-- a pier's part of a re-shard phase is done (R316) -/
  | reshardDone (pier phase : Nat)
  /-- a chunk of a re-shard asked for again (R316) -/
  | reshardAgain (pier chunk : Nat)
  /-- a pier is treated as lost (R405) -/
  | lost (pier : Nat)
  /-- a stream of a pier hung twice on an object that other piers signal, itself or through these collectives; and a
  pier's answer, whether it holds the missing site (R464) -/
  | hangQuery (pier object : Nat) (colls : List Nat)
  | hangAnswer (pier : Nat) (holds : Bool)
  /-- a pier asks for the return to falsework (R241, R402) -/
  | recover (pier : Nat)
  /-- a job that stops with a status (R360) -/
  | jobStop (status : Nat)
  /-- an operator, as the pier that accepted it tells the others: its command, record, parameter block and the CRC of the
  descriptors and tables it names (R320) -/
  | operator (origin cmd record block crc : Nat)
  /-- a pier is ready to start it, or cannot (a completion status), with its count of rows that are not ignored (R328) -/
  | operatorReady (pier origin cmd status count : Nat)
  /-- it starts, or is dropped -/
  | operatorRun (origin cmd : Nat) (go : Bool) (count : Nat)
  /-- a pier's part is done: status, poisoned words, and its sums by core position (R327, R328) -/
  | operatorPart (pier origin cmd status poison : Nat) (sums : List (Nat × List Nat))
  /-- the sums as combined, to be written -/
  | operatorSum (origin cmd : Nat) (sums : List Nat)
deriving DecidableEq, Repr

/-- What a collective message holds: its phase and chain (R300, R303), or the part of a copied operand (R298), or the
counts and rows of a routed collective (R206 to R208), or a re-shard chunk (R316). -/
inductive CollPart where
  | reduce (phase strand owner : Nat)
  | gather (phase strand owner : Nat)
  | copy (leaf part : Nat)
  | count (src expert : Nat)
  | accept (src expert : Nat)
  | row (src expert slot : Nat)
  | ret (src token rank : Nat)
  | chunk (index : Nat)
deriving DecidableEq, Repr

/-- The collective a message belongs to and what it holds. -/
structure CollHead where
  coll : Nat
  step : Nat
  src : Nat
  part : CollPart
deriving DecidableEq, Repr

/-- What a flit carries beside its payload words. -/
inductive FlitBody where
  | none
  | ident (i : Ident)
  | ctrl (m : CtrlMsg)
  | coll (h : CollHead)
deriving DecidableEq, Repr

/-- A flit (R273): the 160-bit header, its payload words, its poison map and its CRC. `tail` counts the bytes of the
last payload word that the message holds, 0 for all four. `corrected` counts the symbols FEC corrected in its
codewords, and `uncorrectable` says that one of them could not be corrected (R272, R278). -/
structure Flit where
  hdr : Nat
  words : List Nat := []
  pmap : Nat := 0
  crc : Nat := 0
  tail : Nat := 0
  body : FlitBody := .none
  corrected : Nat := 0
  uncorrectable : Bool := false
deriving DecidableEq, Repr

/-! ### The commands -/

inductive Instr where
  -- sessions and the host's own commands (R337 to R365)
  | hello (c : HostCmd)
  | openSession (c : HostCmd)
  | close (c : HostCmd)
  | keepalive (c : HostCmd)
  | sessionIdleTimeout
  | netConfig (c : HostCmd)
  | rollCall (c : HostCmd)
  | regionOpen (c : HostCmd)
  | regionClose (c : HostCmd)
  | ringSetup (c : HostCmd)
  | qpConnect (c : HostCmd)
  | fwLoadBegin (c : HostCmd)
  | fwLoadData (c : HostCmd)
  | fwLoadCommit (c : HostCmd) (failed : List (Nat × Nat))
  | fwReplace (c : HostCmd)
  | fwReplacePeriodsOnly (c : HostCmd)
  | fwReplaceProbationEnd
  | wearlogRead (c : HostCmd)
  | wearlogHandBack (c : HostCmd)
  | planLoad (c : HostCmd)
  | planUpdate (c : HostCmd)
  | planUnload (c : HostCmd)
  | descWrite (c : HostCmd)
  | jobStart (c : HostCmd)
  | jobStartTimeout
  | jobAssign (c : HostCmd)
  | spanCreate (c : HostCmd)
  | spanDelete (c : HostCmd)
  | slotWrite (c : HostCmd)
  | syncSignal (c : HostCmd)
  | syncWait (c : HostCmd)
  | syncWaitTimeout (cmdId : Nat)
  | floorplanRead (c : HostCmd)
  | counterRead (c : HostCmd)
  | clampRead (c : HostCmd)
  | statusQuery (c : HostCmd)
  | poisonRead (c : HostCmd)
  | abort (c : HostCmd)
  | drainDetach (c : HostCmd)
  | retireUnit (c : HostCmd)
  | snapshotTake (c : HostCmd)
  | snapshotRead (c : HostCmd)
  | snapshotRelease (c : HostCmd)
  | snapshotTraceRead (c : HostCmd)
  | traceCtlSample (c : HostCmd)
  | traceCtlTrace (c : HostCmd)
  | traceCtlTrigger (c : HostCmd)
  | traceCtlStop (c : HostCmd)
  | traceCtlStatus (c : HostCmd)
  | debugMode (c : HostCmd)
  -- the operator catalogue (R319 to R332)
  | matmul (c : HostCmd)
  | attnFwd (c : HostCmd)
  | attnBwd (c : HostCmd)
  | rmsnorm (c : HostCmd)
  | rmsnormBwd (c : HostCmd)
  | layernorm (c : HostCmd)
  | layernormBwd (c : HostCmd)
  | softmax (c : HostCmd)
  | softmaxBwd (c : HostCmd)
  | xent (c : HostCmd)
  | opRoute (c : HostCmd)
  | opCombine (c : HostCmd)
  | opCombineBwd (c : HostCmd)
  | opRouteBwd (c : HostCmd)
  | embed (c : HostCmd)
  | embedBwd (c : HostCmd)
  | convert (c : HostCmd)
  | init (c : HostCmd)
  | collective (c : HostCmd)
  | update (c : HostCmd)
  | copyRefresh (c : HostCmd)
  | fwWrite (c : HostCmd)
  | fwRestore (c : HostCmd)
  | reshard (c : HostCmd)
  | reshardStageBarrier
  | reshardInstallBarrier
  -- rings, RDMA and Ethernet (R333 to R336, R350 to R354)
  | sqTailWrite (tail : Nat)
  | ringEntry
  | rdmaWrite (port qpn va rkey : Nat) (data : List Byte)
  | rdmaRead (port qpn va rkey len : Nat)
  | rdmaInvalidRequest (port qpn opcode : Nat)
  | cnpReceived (port qpn : Nat)
  | rateRestore (port qpn : Nat)
  | ethUnsupported (port : Nat)
  | icmpEcho (port : Nat) (v6 : Bool) (data : List Byte)
  | neighbourDiscovery (port target : Nat)
  | dhcpReply (port : Nat) (v6 : Bool) (addr : Nat)
  | ethTrainingTurn (port : Nat)
  | ethPortDown (port : Nat)
  -- power, reset and bring-up (R385 to R399, R440 to R446)
  | pwrEnRise
  | pwrEnFall
  | vinUndervoltage
  | vinDip
  | resetNFall
  | resetNRise (slotId : Nat)
  | startUpTestDone (failed : List (Nat × Nat))
  | memoryTrainingDone (failedHbm : List Nat) (dimms : Nat)
  | memoryTestDone (bad : List Nat)
  | computeResetNFall
  | computeResetNRise (failed : List (Nat × Nat))
  | rejoinTimeout (pier : Nat)
  | rootPllLossOfLock (die : Nat)
  | powerSample (watts : Nat)
  | junctionSample (die centi outlet : Nat)
  | thermalTrip
  -- viaduct ports (R272 to R294)
  | laneLockLoss (port lane : Nat)
  | symbolRateCheck (port lane errors symbols : Nat)
  | eyeMarginCheck (margins : List (Nat × Nat × Nat))
  | portTrainingRetry (port : Nat)
  | flitIdent (port : Nat) (f : Flit)
  | flitIdle (port : Nat) (f : Flit)
  | flitWrite (port : Nat) (f : Flit)
  | flitReadReq (port : Nat) (f : Flit)
  | flitSignal (port : Nat) (f : Flit)
  | flitColl (port : Nat) (f : Flit)
  | flitCtrl (port : Nat) (f : Flit)
  | flitRetryReq (port : Nat) (f : Flit)
  | retryReqRepeat (port : Nat)
  | ackTimer (port : Nat)
  | retryExhausted (port : Nat)
  | quietIntervalExpiry
  -- streams and engines (R87 to R149, R162 to R184, R197 to R212)
  | stepBegin (r : SRef)
  | tprod (r : SRef)
  | tbprod (r : SRef)
  | lend (core : Nat)
  | accumulationComplete (core : Nat) (arr : Machine.Arr)
  | drainStart (core : Nat) (arr : Machine.Arr)
  | drainComplete (core : Nat) (arr : Machine.Arr)
  | vrun (r : SRef)
  | attentionKernel (r : SRef)
  | route (r : SRef)
  | combine (r : SRef)
  | combineBwd (r : SRef)
  | routeBwd (r : SRef)
  | qamax (r : SRef)
  | qchamax (r : SRef)
  | qconv (r : SRef)
  | mcopy (r : SRef)
  | mfill (r : SRef)
  | mbankread (r : SRef)
  | swait (r : SRef)
  | sadd (r : SRef)
  | sset (r : SRef)
  | sspan (r : SRef)
  | loop (r : SRef)
  | loopm (r : SRef)
  | endloop (r : SRef)
  | fence (r : SRef)
  | gate (r : SRef)
  | end_ (r : SRef)
  | bridx (r : SRef)
  | mark (r : SRef)
  | up1 (r : SRef)
  | up2 (r : SRef)
  | ucopy (r : SRef)
  | instructionCompletion (r : SRef) (seq : Nat)
  | trestleJob (cluster : Nat)
  -- collectives and the gate (R143, R205 to R212, R228 to R235, R295 to R307)
  | collectiveEntryStart
  | expertRowsLanded (coll expert : Nat)
  | collectiveComplete (coll : Nat)
  | hangIntervalExpiry (r : SRef)
  | vote
  | gateDecide
  | voteTimeout
  | gateResult
  -- recovery, pages and maintenance (R187 to R193, R266, R374 to R383, R407 to R420, R427 to R432)
  | copiesVerified
  | generationLocalWritten
  | buddyShardLands (shard : Nat)
  | fwHoldRelease (layer : Nat)
  | pagePartWrite (p : PagePart)
  | pagePartRead (p : PagePart)
  | lease (win dst : Nat)
  | release (win : Nat)
  | clear (win : Nat)
  | spillLands (entry : Nat)
  | fetchLands (entry : Nat)
  | patrolScrub (key : Nat)
  | watchdogExpiry (kind index : Nat)
  | sampleTick
  | traceFrozen (slot : Nat)
  | roReading (cluster value : Nat)
  | ageingDailySample
  | vinWithinOperatingRange
  | ethLinkUp (port : Nat)
  | fEngineInServiceTest (core : Nat) (pass : Bool)
deriving DecidableEq, Repr

end Sys2Proof
end

