-- ==== Sys2Proof/Decode.lean ====
section
/-! DEFINITION. Commands spelt by words. No row of the opcode table gives bits to its command: a host command is a
packet (R341), a flit a transfer (R273), a stream instruction a word in memory (R123), and the rest are events. -/

namespace Sys2Proof

/-- The command a word spells by the table's bits: none, for every row. -/
def decodeTableWord (_nbits _w : Nat) : Option Instr := none

end Sys2Proof
end

