-- ==== Sys2Proof/Machine/Bits.lean ====
section
/-! DEFINITION. Bit fields, little-endian byte order and two's complement (R2, R4). -/

namespace Sys2Proof.Machine

/-- Bits [hi:lo] of a number (R2: inclusive at both ends, bit 0 least significant). -/
def fld (n hi lo : Nat) : Nat := (n >>> lo) % 2 ^ (hi + 1 - lo)

/-- One bit as a Boolean. -/
def bitOf (n i : Nat) : Bool := fld n i i == 1

/-- The number `n` with bits [hi:lo] replaced by `v`. -/
def setFld (n hi lo v : Nat) : Nat :=
  let w := hi + 1 - lo
  (n >>> (hi + 1)) * 2 ^ (hi + 1) + (v % 2 ^ w) * 2 ^ lo + n % 2 ^ lo

/-- A `w`-bit field read as two's complement. -/
def sext (w v : Nat) : Int := if v % 2 ^ w < 2 ^ (w - 1) then ((v % 2 ^ w : Nat) : Int) else ((v % 2 ^ w : Nat) : Int) - (2 ^ w : Nat)

/-- A Boolean as a bit. -/
def b2n (b : Bool) : Nat := if b then 1 else 0

/-- Little-endian bytes as a number (R4). -/
def leNat : List Byte → Nat
  | [] => 0
  | b :: bs => b.toNat + 256 * leNat bs

/-- The `k` low bytes of a number, little-endian (R4). -/
def natLE : Nat → Nat → List Byte
  | 0, _ => []
  | k + 1, n => BitVec.ofNat 8 n :: natLE k (n / 256)

/-- Big-endian bytes as a number (R4: fields of published protocols). -/
def beNat (bs : List Byte) : Nat := leNat bs.reverse

/-- The `k` low bytes of a number, big-endian. -/
def natBE (k n : Nat) : List Byte := (natLE k n).reverse

/-- Ceiling of a quotient. -/
def cdiv (a b : Nat) : Nat := (a + b - 1) / b

/-- A counter of 32 bits that holds rather than wraps (R57). -/
def hold32 (n : Nat) : Nat := min n 0xFFFFFFFF

/-- Number of set bits of `n` among its low `k` bits. -/
def popcount : Nat → Nat → Nat
  | 0, _ => 0
  | k + 1, n => n % 2 + popcount k (n / 2)

end Sys2Proof.Machine
end

