-- ==== Sys2Proof/Machine/Assoc.lean ====
section
/-! DEFINITION. Tables held as lists of a key and a value, the key occurring once, in the order of first entry. -/

namespace Sys2Proof.Machine

/-- The value of a key, or `d`. -/
def aget [DecidableEq κ] (l : List (κ × α)) (k : κ) (d : α) : α :=
  match l with
  | [] => d
  | (k', v) :: r => if k' = k then v else aget r k d

/-- The value of a key, where it is listed. -/
def aget? [DecidableEq κ] : List (κ × α) → κ → Option α
  | [], _ => none
  | (k', v) :: r, k => if k' = k then some v else aget? r k

/-- The table with a key set to a value. -/
def aset [DecidableEq κ] : List (κ × α) → κ → α → List (κ × α)
  | [], k, v => [(k, v)]
  | (k', v') :: r, k, v => if k' = k then (k, v) :: r else (k', v') :: aset r k v

/-- The table without a key. -/
def adel [DecidableEq κ] (l : List (κ × α)) (k : κ) : List (κ × α) := l.filter fun p => p.1 ≠ k

/-- One element of a list replaced. -/
def lset (l : List α) (i : Nat) (f : α → α) : List α := l.mapIdx fun j x => if j = i then f x else x

end Sys2Proof.Machine
end

