-- ==== Sys2Proof/Config.lean ====
section
/-! DEFINITION. What an implementation fixes and the manual leaves open: free values. None of these constants has a
body, so nothing can be proved of the value of any of them. -/

namespace Sys2Proof.Config

/-- Bits drawn from the random source of SEC, numbered by `State.freeCtr`: the challenge, a session key and session
ID, an OAEP seed, an rkey, a queue pair number and its first PSN (R337, R339, R344, R349). UNVERIFIED: no value is stated. -/
opaque randomBits : Nat → Nat

/-- A signature by the identity signing key of SEC over a digest (R382). The key is private to the device. -/
opaque identitySignature : Nat → Nat

/-- What the V-engine program run numbered by the counter writes: address, word and poison of each store. Programs
other than the fused kernels have no encoding (R110). -/
opaque vprogStores : Nat → List (Nat × Word × Bool)

/-- What the drain's V-engine hook returns for the value it is handed (R110). -/
opaque hookValue : Nat → F32 → F32

/-- The tensor scale a site forms from an amax cell that holds no finite, non-negative number: no result is stated
(R65, R135). -/
opaque badAmaxScale : F32 → F32

/-- A word the manual calls not kept, or leaves to the implementation, numbered by the counter. -/
opaque freeWord : Nat → Word

/-- The bound of a step in µs and its governing term, for a plan's identity. The manual bounds no V-engine program and
gives waits that form a cycle no order, so the longest path through a step has no stated length (R362). -/
opaque stepBound : Nat → Nat × Nat

/-- The bound in µs of an operator other than a collective or an update, and its governing term, by the first word of
its record (R321). -/
opaque operatorBound : Nat → Nat × Nat

/-- Address of the operand descriptor of the saved input, or saved probabilities, that a backward row operator reads, by
its parameter block: no field is named for it (R326, R327). -/
opaque savedOperand : Nat → Nat

/-- The row of an HBM stack or DDR5 channel that holds the unit at a key: the size of a row is not stated (R269, R382). -/
opaque memRow : Nat → Nat → Nat

/-- VIN in millivolts as the carrier power stages measure it at an ACLK count: no command brings a measured value (R447). -/
opaque vinMillivolts : Nat → Nat

end Sys2Proof.Config
end

