-- ==== Sys2Proof/Machine/Fp.lean ====
section
/-! DEFINITION. Exact values, the single rounding of R50, and FP32 arithmetic under round-to-nearest-even
(R60, R94). A finite value is an exact rational, so nothing is rounded but where a rule says so. -/

namespace Sys2Proof.Machine

/-- An exact value: NaN, an infinity, or (-1)^neg * num / den with den > 0. A zero keeps its sign (R56). -/
inductive Ext where
  | nan
  | inf (neg : Bool)
  | fin (neg : Bool) (num den : Nat)
deriving DecidableEq, Repr

/-- Rounding modes (R49). -/
inductive Round where
  | rna | rne | sr | rtz
deriving DecidableEq, Repr

/-- The rounding mode of a 2-bit code (R49). -/
def Round.ofCode (c : Nat) : Round :=
  match c % 4 with | 0 => .rna | 1 => .rne | 2 => .sr | _ => .rtz

namespace Ext

def zero : Ext := .fin false 0 1
def one : Ext := .fin false 1 1
def ofNat (n : Nat) : Ext := .fin false n 1
def ofInt (i : Int) : Ext := .fin (i < 0) i.natAbs 1

/-- (-1)^neg * m * 2^e. -/
def dyadic (neg : Bool) (m : Nat) (e : Int) : Ext :=
  if e ≥ 0 then .fin neg (m * 2 ^ e.toNat) 1 else .fin neg m (2 ^ (-e).toNat)

def isNan : Ext → Bool | .nan => true | _ => false
def isFin : Ext → Bool | .fin .. => true | _ => false
def isZero : Ext → Bool | .fin _ 0 _ => true | _ => false
def isInf : Ext → Bool | .inf _ => true | _ => false
def sign : Ext → Bool | .nan => false | .inf s => s | .fin s _ _ => s

def neg : Ext → Ext | .nan => .nan | .inf s => .inf (!s) | .fin s n d => .fin (!s) n d
def abs : Ext → Ext | .nan => .nan | .inf _ => .inf false | .fin _ n d => .fin false n d

/-- Exact sum. Two zeros of unlike sign, and an exact cancellation, give +0 (round-to-nearest-even). -/
def add : Ext → Ext → Ext
  | .nan, _ => .nan
  | _, .nan => .nan
  | .inf s, .inf t => if s == t then .inf s else .nan
  | .inf s, _ => .inf s
  | _, .inf t => .inf t
  | .fin s n d, .fin t m e =>
    let a := n * e
    let b := m * d
    if s == t then .fin s (a + b) (d * e)
    else if a > b then .fin s (a - b) (d * e)
    else if b > a then .fin t (b - a) (d * e)
    else .fin false 0 1

def sub (a b : Ext) : Ext := add a (neg b)

/-- Exact product; zero times infinity is NaN. -/
def mul : Ext → Ext → Ext
  | .nan, _ => .nan
  | _, .nan => .nan
  | .inf s, .inf t => .inf (s != t)
  | .inf s, .fin t m _ => if m == 0 then .nan else .inf (s != t)
  | .fin s n _, .inf t => if n == 0 then .nan else .inf (s != t)
  | .fin s n d, .fin t m e => .fin (s != t) (n * m) (d * e)

/-- Exact quotient; 0/0 and inf/inf are NaN, a non-zero value over zero is an infinity. -/
def div : Ext → Ext → Ext
  | .nan, _ => .nan
  | _, .nan => .nan
  | .inf _, .inf _ => .nan
  | .inf s, .fin t _ _ => .inf (s != t)
  | .fin s _ _, .inf t => .fin (s != t) 0 1
  | .fin s n d, .fin t m e =>
    if m == 0 then (if n == 0 then .nan else .inf (s != t)) else .fin (s != t) (n * e) (d * m)

/-- Strictly below, for values that are not NaN. -/
def lt : Ext → Ext → Bool
  | .nan, _ => false
  | _, .nan => false
  | .inf s, .inf t => s && !t
  | .inf s, .fin .. => s
  | .fin .., .inf t => !t
  | .fin s n d, .fin t m e =>
    if n == 0 && m == 0 then false
    else if s && !t then true
    else if !s && t then false
    else if s then m * d < n * e else n * e < m * d

def le (a b : Ext) : Bool := !a.isNan && !b.isNan && !lt b a

end Ext

/-- Floor of log2 of num/den, for num, den > 0. -/
def log2Q (num den : Nat) : Int :=
  let e : Int := (num.log2 : Int) - (den.log2 : Int)
  let below := if e ≥ 0 then num < den * 2 ^ e.toNat else num * 2 ^ (-e).toNat < den
  if below then e - 1 else e

/-- num / (den * 2^e) as a pair of numbers. -/
def scaleQ (num den : Nat) (e : Int) : Nat × Nat :=
  if e ≥ 0 then (num, den * 2 ^ e.toNat) else (num * 2 ^ (-e).toNat, den)

/-- Rounding of the non-negative quotient n/d onto the integers: floor, then one up as the mode says (R50).
`r` is the random byte of SR. -/
def roundInt (mode : Round) (r n d : Nat) : Nat :=
  let lo := n / d
  let rem := n % d
  let up : Bool := match mode with
    | .rna => d ≤ 2 * rem
    | .rne => d < 2 * rem || (2 * rem == d && lo % 2 == 1)
    | .rtz => false
    | .sr => r < rem * 256 / d
  if up then lo + 1 else lo

/-- The magnitude num/den rounded onto the grid of a float with `mw` fraction bits and least normal exponent
`emin`, continued with an unbounded exponent (R50). The answer is the sequence number of the grid value, which
for a value in range is its code without the sign. -/
def roundCode (mw : Nat) (emin : Int) (mode : Round) (r num den : Nat) : Nat :=
  if num == 0 then 0
  else
    let e := log2Q num den
    let ue := max e emin - mw
    let q := scaleQ num den ue
    (ue - (emin - mw)).toNat * 2 ^ mw + roundInt mode r q.1 q.2

/-- The value of a float code without its sign, for a finite code (R36). -/
def magOfCode (mw : Nat) (emin : Int) (c : Nat) : Nat × Int :=
  let ef := c / 2 ^ mw
  let m := c % 2 ^ mw
  if ef == 0 then (m, emin - mw) else (2 ^ mw + m, emin - mw + ef - 1)

/-- FP32 bit pattern as an exact value (R36). -/
def f32 (x : F32) : Ext :=
  let n := x.toNat
  let s := n ≥ 2 ^ 31
  let c := n % 2 ^ 31
  if c > 0x7F800000 then .nan
  else if c == 0x7F800000 then .inf s
  else let q := magOfCode 23 (-126) c; Ext.dyadic s q.1 q.2

/-- The canonical FP32 NaN (R48). -/
def nan32 : F32 := 0x7FC00000#32

/-- A sign and a magnitude code as an FP32 pattern. -/
def pack32 (s : Bool) (c : Nat) : F32 := BitVec.ofNat 32 ((if s then 2 ^ 31 else 0) + c)

/-- An exact value rounded once onto the FP32 grid by round-to-nearest-even, with IEEE 754 binary32 subnormals,
overflow to an infinity and NaN rules (R94). -/
def rne32 : Ext → F32
  | .nan => nan32
  | .inf s => pack32 s 0x7F800000
  | .fin s n d => pack32 s (min (roundCode 23 (-126) .rne 0 n d) 0x7F800000)

def fadd (a b : F32) : F32 := rne32 ((f32 a).add (f32 b))
def fsub (a b : F32) : F32 := rne32 ((f32 a).sub (f32 b))
def fmul (a b : F32) : F32 := rne32 ((f32 a).mul (f32 b))
def fdiv (a b : F32) : F32 := rne32 ((f32 a).div (f32 b))
def fneg (a : F32) : F32 := a ^^^ 0x80000000#32
def fOne : F32 := 0x3F800000#32

def finite32 (x : F32) : Bool := x.toNat % 2 ^ 31 < 0x7F800000
def isNan32 (x : F32) : Bool := x.toNat % 2 ^ 31 > 0x7F800000
def isZero32 (x : F32) : Bool := x.toNat % 2 ^ 31 == 0
/-- Magnitude order of two FP32 patterns that are not NaN. -/
def absGe32 (a b : F32) : Bool := b.toNat % 2 ^ 31 ≤ a.toNat % 2 ^ 31
def flt (a b : F32) : Bool := (f32 a).lt (f32 b)
/-- Positive, finite and normal (R40, R73). -/
def posNormal32 (x : F32) : Bool := 0x00800000 ≤ x.toNat && x.toNat < 0x7F800000

/-- A non-negative integer as FP32, rounded by RNE. -/
def f32OfNat (n : Nat) : F32 := rne32 (.fin false n 1)

/-- The exact square root of a non-negative rational, as floor(sqrt(num/den) * 2^p) and whether it is exact. `b`
bits are found from the top. -/
def isqrtAux : Nat → Nat → Nat → Nat
  | 0, _, r => r
  | b + 1, n, r =>
    let t := r + 2 ^ b
    isqrtAux b n (if t * t ≤ n then t else r)

/-- Integer square root. -/
def isqrt (n : Nat) : Nat := isqrtAux (n.log2 / 2 + 1) n 0

/-- Integer fourth root. -/
def iroot4 (n : Nat) : Nat := isqrt (isqrt n)

/-- The correctly rounded FP32 square root; the root of a value below zero is NaN, and zero keeps its sign. -/
def fsqrt (x : F32) : F32 :=
  match f32 x with
  | .nan => nan32
  | .inf s => if s then nan32 else x
  | .fin s n d =>
    if n == 0 then x
    else if s then nan32
    else
      -- sqrt(n/d) = sqrt(n*d)/d; 2^200 leaves every bit that can decide the rounding, with a sticky bit below
      let k := n * d * 2 ^ 400
      let r := isqrt k
      let t := if r * r == k then 2 * r else 2 * r + 1
      rne32 (.fin false t (d * 2 ^ 201))

/-- Two-sum addition of one term to a value and its compensation (R94, `kn_add`). -/
def knAdd (p : F32 × F32) (x : F32) : F32 × F32 :=
  if isZero32 x then p
  else
    let t := fadd p.1 x
    if !finite32 t then (t, 0#32)
    else
      let e := if absGe32 p.1 x then fadd (fsub p.1 t) x else fadd (fsub x t) p.1
      (t, fadd p.2 e)

/-- Addition of a value and its compensation as one term (R94, `add_pair`). -/
def addPair (p : F32 × F32) (x y : F32) : F32 × F32 :=
  let q := knAdd p x
  if finite32 q.1 && !isZero32 y then (q.1, fadd q.2 y) else q

/-- An empty sum. -/
def pair0 : F32 × F32 := (0#32, 0#32)

/-- A pair resolved into one FP32 value. -/
def resolve (p : F32 × F32) : F32 := fadd p.1 p.2

end Sys2Proof.Machine
end

