-- ==== Sys2Proof/Machine/Formats.lean ====
section
/-! DEFINITION. The fourteen element formats (R35 to R39), scale formats (R40, R41), the keystone form (R44, R45)
and the single narrowing of a value to a format with its special-value rules (R49 to R57). -/

namespace Sys2Proof.Machine

/-- Element formats (R35). -/
inductive Elem where
  | b1 | t2 | i2 | i4 | p4 | p6a | p6b | e4m3 | e5m2 | i8 | g12 | bf16 | fp16 | fp32
deriving DecidableEq, Repr

/-- The format of a 5-bit element code; reserved codes name none (R35). -/
def Elem.ofCode : Nat → Option Elem
  | 0x01 => some .b1 | 0x02 => some .t2 | 0x03 => some .i2 | 0x04 => some .i4 | 0x05 => some .p4
  | 0x06 => some .p6a | 0x07 => some .p6b | 0x08 => some .e4m3 | 0x09 => some .e5m2 | 0x0A => some .i8
  | 0x0B => some .g12 | 0x0C => some .bf16 | 0x0D => some .fp16 | 0x0E => some .fp32 | _ => none

/-- The 5-bit code of a format (R35). -/
def Elem.code : Elem → Nat
  | .b1 => 1 | .t2 => 2 | .i2 => 3 | .i4 => 4 | .p4 => 5 | .p6a => 6 | .p6b => 7 | .e4m3 => 8 | .e5m2 => 9
  | .i8 => 10 | .g12 => 11 | .bf16 => 12 | .fp16 => 13 | .fp32 => 14

/-- Element width in bits (R38). -/
def Elem.bits : Elem → Nat
  | .b1 => 1 | .t2 | .i2 => 2 | .i4 | .p4 => 4 | .p6a | .p6b => 6 | .e4m3 | .e5m2 | .i8 => 8
  | .g12 => 12 | .bf16 | .fp16 => 16 | .fp32 => 32

/-- Elements per packing group, and group bytes (R38). -/
def Elem.group : Elem → Nat × Nat
  | .b1 => (8, 1) | .t2 | .i2 => (4, 1) | .i4 | .p4 => (2, 1) | .p6a | .p6b => (4, 3)
  | .e4m3 | .e5m2 | .i8 => (1, 1) | .g12 => (2, 3) | .bf16 | .fp16 => (1, 2) | .fp32 => (1, 4)

/-- Bytes of a packed row of `n` elements (R38). -/
def Elem.rowBytes (e : Elem) (n : Nat) : Nat := cdiv n e.group.1 * e.group.2

/-- Layout of a float format (R36): fraction bits, least normal exponent 1 − bias, codes of the largest finite
magnitude and of the special values. -/
structure FloatFmt where
  mw : Nat
  emin : Int
  width : Nat
  maxFin : Nat
  /-- code of Inf, where the format has one -/
  infCode : Option Nat
  nanCode : Option Nat
deriving DecidableEq, Repr

def Elem.float? : Elem → Option FloatFmt
  | .p4 => some ⟨1, 0, 4, 0x7, none, none⟩
  | .p6a => some ⟨2, -2, 6, 0x1F, none, none⟩
  | .p6b => some ⟨3, 0, 6, 0x1F, none, none⟩
  | .e4m3 => some ⟨3, -6, 8, 0x7E, none, some 0x7F⟩
  | .e5m2 => some ⟨2, -14, 8, 0x7B, some 0x7C, some 0x7E⟩
  | .g12 => some ⟨5, -30, 12, 0x7DF, some 0x7E0, some 0x7F0⟩
  | .bf16 => some ⟨7, -126, 16, 0x7F7F, some 0x7F80, some 0x7FC0⟩
  | .fp16 => some ⟨10, -14, 16, 0x7BFF, some 0x7C00, some 0x7E00⟩
  | .fp32 => some ⟨23, -126, 32, 0x7F7FFFFF, some 0x7F800000, some 0x7FC00000⟩
  | _ => none

/-- Value of an element code (R36, R37). T2 code 0b10 is reserved and reads as 0. -/
def Elem.decode (e : Elem) (c : Nat) : Ext :=
  match e with
  | .b1 => .fin (c % 2 == 1) 1 1
  | .t2 => if c % 4 == 1 then .one else if c % 4 == 3 then .fin true 1 1 else .zero
  | .i2 => .ofInt (sext 2 c)
  | .i4 => .ofInt (sext 4 c)
  | .i8 => .ofInt (sext 8 c)
  | _ =>
    match e.float? with
    | none => .zero
    | some f =>
      let s := bitOf c (f.width - 1)
      let m := c % 2 ^ (f.width - 1)
      if m ≤ f.maxFin then let q := magOfCode f.mw f.emin m; .dyadic s q.1 q.2
      else if f.infCode == some m then .inf s else .nan

/-- A decoded code that counts in RESERVED_CODE (R37). -/
def Elem.reservedCode (e : Elem) (c : Nat) : Bool := e == .t2 && c % 4 == 2

/-! ### Keystone form (R44, R45) -/

/-- A keystone value (R44). -/
structure Keystone where
  s : BitVec 1
  exp : BitVec 10
  sig : BitVec 12
deriving DecidableEq, Repr

/-- Value of a keystone (R44): (-1)^s × sig × 2^(exp − 522); 1,023 is Inf or NaN. -/
def Keystone.value (k : Keystone) : Ext :=
  if k.exp == 1023 then (if k.sig == 0xC00 then .nan else .inf (k.s == 1))
  else if k.exp == 0 then .fin (k.s == 1) 0 1
  else .dyadic (k.s == 1) k.sig.toNat ((k.exp.toNat : Int) - 522)

def Keystone.mk' (s : Bool) (exp : Int) (sig : Nat) : Keystone :=
  ⟨BitVec.ofNat 1 (b2n s), BitVec.ofNat 10 exp.toNat, BitVec.ofNat 12 sig⟩

/-- An integer magnitude with its leading bit moved to bit 11 (R45). -/
def Keystone.ofMag (s : Bool) (m : Nat) (e : Int) : Keystone :=
  if m == 0 then .mk' s 0 0
  else let p := m.log2; .mk' s (e + p + 511) (if p ≤ 11 then m * 2 ^ (11 - p) else m / 2 ^ (p - 11))

/-- Decoding of element codes 0x01–0x0D (R45). -/
def Elem.keystone (e : Elem) (c : Nat) : Keystone :=
  match e with
  | .b1 => .mk' (c % 2 == 1) 511 0x800
  | .t2 => if c % 4 == 0 || c % 4 == 2 then .mk' false 0 0 else .mk' (c % 4 == 3) 511 0x800
  | .i2 => let k := sext 2 c; .ofMag (k < 0) k.natAbs 0
  | .i4 => let k := sext 4 c; .ofMag (k < 0) k.natAbs 0
  | .i8 => let k := sext 8 c; .ofMag (k < 0) k.natAbs 0
  | _ =>
    match e.float? with
    | none => .mk' false 0 0
    | some f =>
      let s := bitOf c (f.width - 1)
      let m := c % 2 ^ (f.width - 1)
      if m ≤ f.maxFin then let q := magOfCode f.mw f.emin m; .ofMag s q.1 q.2
      else if f.infCode == some m then .mk' s 1023 0x800 else .mk' false 1023 0xC00

/-! ### Scales (R40, R41) -/

/-- Scale kinds of a tensor (R42). -/
inductive ScaleKind where
  | none | ue8m0 | e4m3 | e4m3t
deriving DecidableEq, Repr

def ScaleKind.ofCode : Nat → ScaleKind
  | 1 => .ue8m0 | 2 => .e4m3 | 3 => .e4m3t | _ => .none

/-- Value of a block-scale byte (R40, R41); an E4M3 scale with s = 1 reads as NaN. -/
def ScaleKind.value (k : ScaleKind) (b : Nat) : Ext :=
  match k with
  | .none => .one
  | .ue8m0 => if b % 256 == 0xFF then .nan else .dyadic false 1 ((b % 256 : Nat) - 127)
  | _ => if b % 256 ≥ 0x80 then .nan else Elem.e4m3.decode (b % 256)

/-- An E4M3 scale with s = 1, counted in SCALE_INVALID (R41). -/
def ScaleKind.invalid (k : ScaleKind) (b : Nat) : Bool :=
  match k with | .e4m3 | .e4m3t => b % 256 ≥ 0x80 | _ => false

/-- The NaN code of a block scale (R48). -/
def ScaleKind.nanCode : ScaleKind → Nat | .ue8m0 => 0xFF | _ => 0x7F

/-- Value of a tensor scale word (R40, R41). -/
def tscaleValue (w : F32) : Ext := if posNormal32 w then f32 w else .nan

/-! ### Narrowing (R50, R53 to R56) -/

/-- The conversion counters an event of narrowing can touch, as indices of R57's table. -/
abbrev NAN_IN : Nat := 0
abbrev INF_IN : Nat := 1
abbrev SAT_FINITE : Nat := 2
abbrev SAT_SPECIAL : Nat := 3
abbrev OVF_SPECIAL : Nat := 4
abbrev NAN_FORCED : Nat := 5
abbrev SCALE_NAN : Nat := 6
abbrev POISONED : Nat := 7
abbrev UNDERFLOW : Nat := 8
abbrev RESERVED_CODE : Nat := 9
abbrev SCALE_INVALID : Nat := 10
abbrev SCALE_UNDERFLOW : Nat := 11
abbrev SCALE_OVERFLOW : Nat := 12
abbrev OUTLIER_EXCESS : Nat := 13
abbrev PAIR_MISMATCH : Nat := 14

/-- What narrowing one value gives: the code, whether the block scale becomes NaN, whether the stored word is
poisoned, and the counters that count it. -/
structure Narrow where
  code : Nat
  scaleNan : Bool := false
  poison : Bool := false
  counts : List Nat := []
deriving DecidableEq, Repr

/-- Range end of an integer-grid format by sign (R53). -/
def Elem.intLimit (e : Elem) (s : Bool) : Nat :=
  match e with
  | .t2 => 1
  | .i2 => if s then 2 else 1
  | .i4 => if s then 8 else 7
  | _ => if s then 128 else 127

/-- Code of a signed integer in an integer-grid format (R37). -/
def Elem.intCode (e : Elem) (s : Bool) (m : Nat) : Nat :=
  match e with
  | .t2 => if m == 0 then 0 else if s then 3 else 1
  | _ => if s && m != 0 then 2 ^ e.bits - m else m

/-- The element of largest finite magnitude, or the range end, of a sign (R54). -/
def Elem.limitCode (e : Elem) (s : Bool) : Nat :=
  match e.float? with
  | some f => f.maxFin + (if s then 2 ^ (f.width - 1) else 0)
  | none => e.intCode s (e.intLimit s)

/-- Code of a zero (R56): the sign is kept by float formats only. -/
def Elem.zeroCode (e : Elem) (s : Bool) : Nat :=
  match e.float? with | some f => if s then 2 ^ (f.width - 1) else 0 | none => 0

/-- One value narrowed to a format by the site's rounding mode, overflow rule (true is PROP), and random byte;
`scaled` says that scale_kind is not 0 (R50, R53 to R56). -/
def Elem.narrow (e : Elem) (mode : Round) (prop : Bool) (scaled : Bool) (r : Nat) (x : Ext) : Narrow :=
  if e == .b1 then
    match x with
    | .nan => { code := 0, poison := prop, counts := [NAN_IN, NAN_FORCED] }
    | .inf s => { code := b2n s, counts := [INF_IN] }
    | .fin s .. => { code := b2n s }
  else
    match x with
    | .nan =>
      match e.float? with
      | some f =>
        match f.nanCode with
        | some c => { code := c, counts := [NAN_IN] }
        | none => special e false
      | none => special e false
    | .inf s =>
      match e.float? with
      | some f =>
        match f.nanCode with
        | some c =>
          if prop then { code := (match f.infCode with | some i => i + (if s then 2 ^ (f.width - 1) else 0) | none => c), counts := [INF_IN] }
          else { code := e.limitCode s, counts := [INF_IN, SAT_SPECIAL] }
        | none => infC e s
      | none => infC e s
    | .fin s n d =>
      let c := match e.float? with
        | some f => roundCode f.mw f.emin mode r n d
        | none => roundInt mode r n d
      let exceeds : Bool := match e.float? with | some f => decide (c > f.maxFin) | none => decide (c > e.intLimit s)
      if exceeds then
        match e.float? with
        | some f =>
          match prop, f.nanCode with
          | true, some nc => { code := (match f.infCode with | some i => i + (if s then 2 ^ (f.width - 1) else 0) | none => nc), counts := [OVF_SPECIAL] }
          | _, _ => { code := e.limitCode s, counts := [SAT_FINITE] }
        | none => { code := e.limitCode s, counts := [SAT_FINITE] }
      else
        let u := if c == 0 && n != 0 then [UNDERFLOW] else []
        match e.float? with
        | some f => { code := c + (if s then 2 ^ (f.width - 1) else 0), counts := u }
        | none => { code := e.intCode s c, counts := u }
where
  /-- NaN into a format of class C or D (R54). -/
  special (e : Elem) (_s : Bool) : Narrow :=
    if !prop then { code := e.zeroCode false, counts := [NAN_IN, NAN_FORCED] }
    else if scaled then { code := e.zeroCode false, scaleNan := true, counts := [NAN_IN] }
    else { code := e.zeroCode false, poison := true, counts := [NAN_IN] }
  /-- An infinity into a format of class C or D (R54). -/
  infC (e : Elem) (s : Bool) : Narrow :=
    if !prop then { code := e.limitCode s, counts := [INF_IN, SAT_SPECIAL] }
    else if scaled then { code := e.limitCode s, scaleNan := true, counts := [INF_IN] }
    else { code := e.limitCode s, poison := true, counts := [INF_IN] }

/-- Scale target Q as a fraction, and emax (R66). -/
def Elem.target : Elem → Nat × Nat × Int
  | .b1 | .t2 | .i2 => (1, 1, 0)
  | .i4 => (7, 1, 2)
  | .p4 => (6, 1, 2)
  | .p6a => (28, 1, 4)
  | .p6b => (15, 2, 2)
  | .e4m3 => (448, 1, 8)
  | .e5m2 => (57344, 1, 15)
  | .i8 => (127, 1, 6)
  | _ => (1, 1, 0)

/-- Block scale of a block whose amax over the tensor scale is n/d (R67, R68); `mx` selects the MX rule. The
answer is the code and the counters touched. -/
def blockScale (k : ScaleKind) (e : Elem) (mx : Bool) (n d : Nat) : Nat × List Nat :=
  let t := e.target
  match k with
  | .none => (0, [])
  | .ue8m0 =>
    if n == 0 then (0x7F, [])
    else
      -- a/Q = (n * qd) / (d * qn)
      let f := log2Q (n * t.2.1) (d * t.1)
      let q := scaleQ (n * t.2.1) (d * t.1) f
      let ex : Int := if mx then log2Q n d - t.2.2 else if q.1 == q.2 then f else f + 1
      if ex < -127 then (0, [SCALE_UNDERFLOW]) else if ex > 127 then (254, [SCALE_OVERFLOW]) else ((ex + 127).toNat, [])
  | _ =>
    if n == 0 then (0, [])
    else
      let qn := n * t.2.1
      let qd := d * t.1
      -- 2^-9 is the least non-zero value of the scale format
      if qn * 512 < qd then (1, [SCALE_UNDERFLOW])
      else
        let c := if mx then roundCode 3 (-6) .rna 0 qn qd
          else
            let lo := roundCode 3 (-6) .rtz 0 qn qd
            let v := magOfCode 3 (-6) lo
            match (Ext.dyadic false v.1 v.2) with
            | .fin _ a b => if a * qd == qn * b then lo else lo + 1
            | _ => lo
        if c > 0x7E then (0x7E, [SCALE_OVERFLOW]) else (c, [])

/-- Tensor scale H × amax / (Q × 448) rounded toward +∞ (R65), H = 1 + h/16. -/
def tensorScale (e : Elem) (h n d : Nat) : F32 × List Nat :=
  if n == 0 then (fOne, [])
  else
    let t := e.target
    let qn := (16 + h) * n * t.2.1
    let qd := 16 * d * t.1 * 448
    let lo := roundCode 23 (-126) .rtz 0 qn qd
    let v := magOfCode 23 (-126) lo
    let c := match (Ext.dyadic false v.1 v.2) with
      | .fin _ a b => if a * qd == qn * b then lo else lo + 1
      | _ => lo
    if c < 0x00800000 then (0x00800000#32, [SCALE_UNDERFLOW]) else (BitVec.ofNat 32 c, [])

end Sys2Proof.Machine
end

