-- ==== Sys2Proof/Machine/Philox.lean ====
section
/-! DEFINITION. Random bits: the Philox-4×32 generator with 10 rounds (R80), its counter layout (R81, R82) and the
byte one stochastic rounding takes (R52). -/

namespace Sys2Proof.Machine

/-- One round of Philox-4×32 on the counter words under the key words (R80). -/
def philoxRound (k0 k1 : Nat) (x : Nat × Nat × Nat × Nat) : Nat × Nat × Nat × Nat :=
  let p0 := 0xD2511F53 * x.1
  let p1 := 0xCD9E8D57 * x.2.2.1
  ((p1 / 2 ^ 32) ^^^ x.2.1 ^^^ k0, p1 % 2 ^ 32, (p0 / 2 ^ 32) ^^^ x.2.2.2 ^^^ k1, p0 % 2 ^ 32)

/-- `n` rounds; the key words step by the Weyl constants between rounds. -/
def philoxRounds : Nat → Nat → Nat → Nat × Nat × Nat × Nat → Nat × Nat × Nat × Nat
  | 0, _, _, x => x
  | n + 1, k0, k1, x =>
    philoxRounds n ((k0 + 0x9E3779B9) % 2 ^ 32) ((k1 + 0xBB67AE85) % 2 ^ 32) (philoxRound k0 k1 x)

/-- The 128-bit output for a 64-bit seed and a 128-bit counter, x0 in bits [31:0] (R52, R80). -/
def philox (seed ctr : Nat) : Nat :=
  let x := philoxRounds 10 (fld seed 31 0) (fld seed 63 32) (fld ctr 31 0, fld ctr 63 32, fld ctr 95 64, fld ctr 127 96)
  x.1 + x.2.1 * 2 ^ 32 + x.2.2.1 * 2 ^ 64 + x.2.2.2 * 2 ^ 96

/-- Stream ID of a leaf position, a unit code and a purpose code (R81). -/
def streamId (leaf unit purpose : Nat) : Nat := (leaf % 4096) * 2 ^ 20 + (unit % 4096) * 2 ^ 8 + purpose % 256

/-- The counter of a stream ID, a position and a block index (R81). -/
def ctrOf (sid pos block : Nat) : Nat := (sid % 2 ^ 32) * 2 ^ 96 + (pos % 2 ^ 64) * 2 ^ 32 + block % 2 ^ 32

/-- What a conversion's random bytes depend on besides the element (R82). -/
structure RandSite where
  seed : Nat
  sid : Nat
  inst : Nat
  step : Nat
deriving DecidableEq, Repr

/-- The random byte of the rounding numbered `k` in its lane (R52, R82). -/
def RandSite.byte (r : RandSite) (side : Bool) (lane k : Nat) : Nat :=
  let pos := (r.inst % 2 ^ 16) * 2 ^ 48 + (b2n side) * 2 ^ 47 + (lane % 128) * 2 ^ 40 + (k / 16) % 2 ^ 40
  let o := philox r.seed (ctrOf r.sid pos r.step)
  (o >>> (8 * (k % 16))) % 256

end Sys2Proof.Machine
end

