-- ==== Sys2Proof/Machine/Convert.lean ====
section
/-! DEFINITION. The conversion from wide to narrow: control word (R59), tensor format field (R42), smoothing,
rotation, outliers, scales, the single rounding of each element, and poison (R58 to R86, R461). -/

namespace Sys2Proof.Machine

/-- Conversion sites (R58). -/
inductive Site where
  | drain | atrest | wire | link | camber
deriving DecidableEq, Repr

/-- A conversion control word (R59). -/
structure Ctl where
  mulDir : Bool
  round : Round
  prop : Bool
  mx : Bool
  headroom : Nat
  tau : Nat
  dynamic : Bool
  inst : Nat
deriving DecidableEq, Repr

/-- The control word of 32 bits. RTZ is honoured in debug mode only and becomes RNA otherwise (R49, R59). -/
def Ctl.ofWord (debug : Bool) (w : Nat) : Ctl :=
  let r := Round.ofCode (fld w 29 28)
  { mulDir := bitOf w 30, round := if r == .rtz && !debug then .rna else r, prop := bitOf w 27, mx := bitOf w 26,
    headroom := fld w 25 22, tau := fld w 21 18, dynamic := fld w 17 16 == 1, inst := fld w 15 0 }

/-- A tensor format field (R42). -/
structure Fmt where
  elem : Elem
  kind : ScaleKind
  block : Nat
  /-- rotation size, or 0 -/
  rot : Nat
  smooth : Bool
  outlier : Bool
deriving DecidableEq, Repr

/-- The format field; none where the element code is reserved (R42). A scale kind with an element wider than 8 bits
is clamped to 0 (R43). -/
def Fmt.ofField (w : Nat) : Option Fmt :=
  (Elem.ofCode (fld w 4 0)).map fun e =>
    { elem := e
      kind := if e.code ≤ 0x0A then .ofCode (fld w 8 7) else .none
      block := 16 * 2 ^ fld w 6 5
      rot := match fld w 10 9 with | 0 => 0 | 1 => 16 | 2 => 64 | _ => 256
      smooth := bitOf w 11, outlier := bitOf w 12 }

/-- A presented value and whether it is poisoned (R461). -/
abbrev PV := Ext × Bool

/-- Runs of `b` consecutive indices aligned at multiples of `b`, of a list whose first index is `c`. -/
def runsAux (b : Nat) : Nat → Nat → List α → List (List α)
  | 0, _, _ => []
  | _ + 1, _, [] => []
  | f + 1, c, xs => let k := b - c % b; xs.take k :: runsAux b f (c + k) (xs.drop k)

def runs (b c : Nat) (xs : List α) : List (List α) := runsAux (max b 1) (xs.length + 1) c xs

/-- A maximum of magnitudes over finite members, num/den, and its poison (R64, R461). -/
structure Amax where
  n : Nat := 0
  d : Nat := 1
  poison : Bool := false
deriving DecidableEq, Repr

def Amax.join (a b : Amax) : Amax :=
  let m := if a.n * b.d < b.n * a.d then b else a
  { m with poison := a.poison || b.poison }

def Amax.ofPV (x : PV) : Amax :=
  match x.1 with
  | .fin _ n d => { n := n, d := d, poison := x.2 }
  | _ => { poison := x.2 }

def amaxOf (xs : List PV) : Amax := xs.foldl (fun a x => a.join (.ofPV x)) {}

/-- The FP32 word an amax is held as (R135). The amax of FP32 values is exact. -/
def Amax.word (a : Amax) : F32 := rne32 (.fin false a.n a.d)

/-- The amax an FP32 cell holds, where it holds a finite value that is not negative. -/
def Amax.ofCell (w : F32) (p : Bool) : Option Amax :=
  match f32 w with | .fin false n d => some { n := n, d := d, poison := p } | _ => none

/-! ### Smoothing and rotation (R69 to R73) -/

/-- One FP32 operation on exact values (R60). -/
def op32 (x : Ext) : Ext := f32 (rne32 x)

/-- A smoothing factor as read: 1.0 for one that is not positive, finite and normal (R73). -/
def smoothFactor (w : F32) : F32 := if posNormal32 w then w else fOne

def smoothOne (mulDir : Bool) (v : PV) (f : F32 × Bool) : PV :=
  let g := f32 (smoothFactor f.1)
  (op32 (if mulDir then v.1.mul g else v.1.div g), v.2 || f.2)

/-- One stage of the butterfly of R70 over runs of 2h values. -/
def butterflyStage (h : Nat) : Nat → List Ext → List Ext
  | 0, xs => xs
  | k + 1, xs =>
    let a := xs.take h
    let b := (xs.drop h).take h
    List.zipWith (fun x y => op32 (x.add y)) a b ++ List.zipWith (fun x y => op32 (x.sub y)) a b ++
      butterflyStage h k (xs.drop (2 * h))

def butterfly (n : Nat) : Nat → Nat → List Ext → List Ext
  | 0, _, xs => xs
  | k + 1, h, xs => butterfly n k (2 * h) (butterflyStage h (n / (2 * h)) xs)

/-- A whole rotation block of n values (R70). -/
def rotateBlock (n : Nat) (xs : List Ext) : List Ext :=
  (butterfly n n.log2 1 xs).map fun x => op32 (x.mul (.dyadic false 1 (-((n.log2 / 2 : Nat) : Int))))

/-- A row rotated in blocks of n from index 0; a block the row holds in part is left as it is (R69). Every value of a
rotated block carries the poison of the block (R461). -/
def rotateRow (n c : Nat) (xs : List PV) : List PV :=
  if n == 0 then xs
  else (runs n c xs).flatMap fun b =>
    if b.length == n then let p := b.any (·.2); (rotateBlock n (b.map (·.1))).map fun x => (x, p) else b

/-! ### Outliers (R75 to R77) -/

/-- The indices of an outlier entry: rising strictly within the first count slots and inside a group of L channels;
others are dropped (R75). -/
def outlierIdx (L w : Nat) : List Nat :=
  ((List.range (min (fld w 63 60) 8)).foldl (fun (a : List Nat) j =>
    let i := fld w (7 * j + 6) (7 * j)
    if i < L && (a.headD 0 < i || a.isEmpty) then i :: a else a) []).reverse

/-- Whether reading the entry dropped an index or cut its count (reported under R7). -/
def outlierClamped (L w : Nat) : Bool := fld w 63 60 > 8 || (outlierIdx L w).length < fld w 63 60

/-- The entry of an ascending list of at most 8 indices (R75). -/
def outlierEntry (is : List Nat) : Nat :=
  is.length * 2 ^ 60 + ((List.range is.length).map fun j => is.getD j 0 * 2 ^ (7 * j)).sum

/-- Position of the first best channel among `c`, best first by amax and then by index (R76). -/
def rankInsert (x : Nat × Amax) : List (Nat × Amax) → List (Nat × Amax)
  | [] => [x]
  | y :: ys => if y.2.n * x.2.d < x.2.n * y.2.d then x :: y :: ys else y :: rankInsert x ys

/-- DYNAMIC selection in a group whose channel amaxes are given: the indices taken, ascending, and the number of
further channels above the threshold (R76). -/
def dynamicPick (tau : Nat) (cs : List Amax) : List Nat × Nat :=
  let ranked := (List.zip (List.range cs.length) cs).foldl (fun l x => rankInsert x l) []
  let mid := (ranked.map (·.2)).getD (cdiv cs.length 2 - 1) {}
  let above := ranked.filter fun x => mid.n * 2 ^ tau * x.2.d < x.2.n * mid.d
  let taken := (above.take 8).map (·.1)
  ((List.range cs.length).filter taken.contains, above.length - 8)

/-! ### A row narrowed -/

/-- One stored element: its code, whether its word is poisoned by a dependency, and whether the site poisons it
(R54, R461). -/
structure OutCell where
  code : Nat
  poison : Bool := false
  own : Bool := false
deriving DecidableEq, Repr

/-- A conversion as its site performs it: destination format after the clamps of R86, scales, control word, random
source, the outlier channels of the row, and the first column. -/
structure Conv where
  elem : Elem
  kind : ScaleKind
  block : Nat
  rot : Nat
  ctl : Ctl
  rand : RandSite
  /-- FP32 results stored as they are (R106) -/
  raw32 : Bool := false
  /-- smoothing factors, one per column from `col0`, with their poison -/
  smooth : Option (List (F32 × Bool)) := none
  /-- outlier channels by group, ascending, as absolute columns -/
  outl : List (List Nat) := []
  /-- columns whose outlier entry was poisoned -/
  outlPoison : List Nat := []
  col0 : Nat := 0
  /-- first row of the part converted, and the row length of the whole tensor -/
  row0 : Nat := 0
  inner : Nat := 0
  /-- at CAMBER, the master's columns and whether the copy is transposed: the index is that of the master position
  (R82, R239) -/
  flat : Option (Nat × Bool) := none
deriving DecidableEq, Repr

/-- What one row becomes: its elements, block scales with poison, side values by group, and the counters touched. -/
structure RowOut where
  cells : List OutCell
  scales : List (Nat × Bool)
  side : List (List OutCell)
  counts : List Nat
deriving DecidableEq, Repr

/-- Number of columns of a row of `n` that lie in a lane (R82). -/
def laneCount (n lane : Nat) : Nat := n / 128 + (if n % 128 > lane then 1 else 0)

/-- The random byte of the element in column `c` of the part's row `r` (R82, R239). Rows and columns are those of the
tensor, so that the byte does not depend on how the conversion is cut (R83; log 13). -/
def Conv.byteOf (q : Conv) (r c : Nat) : Nat :=
  if q.ctl.round == .sr then
    match q.flat with
    | some (cols, t) =>
      let x := if t then c * cols + (q.row0 + r) else (q.row0 + r) * cols + c
      q.rand.byte false (x % 128) (x / 128)
    | none =>
      let lane := c % 128
      q.rand.byte false lane ((q.row0 + r) * laneCount q.inner lane + c / 128)
  else 0

/-- The values of a row after outliers, smoothing and rotation (R61). -/
def Conv.prepare (q : Conv) (xs : List PV) : List PV :=
  let chans := q.outl.flatten
  let zeroed := xs.mapIdx fun i x =>
    let c := q.col0 + i
    let x' := if chans.contains c then (Ext.zero, false) else x
    (x'.1, x'.2 || q.outlPoison.contains c)
  let sm := match q.smooth with
    | none => zeroed
    | some fs => List.zipWith (smoothOne q.ctl.mulDir) zeroed fs
  rotateRow q.rot q.col0 sm

/-- The side values of a row: for each group, its outlier channels narrowed to BF16 (R77). -/
def Conv.sideOf (q : Conv) (r : Nat) (xs : List PV) : List (List OutCell) × List Nat :=
  let all := q.outl.flatten
  let gs := q.outl.map fun g => g.map fun c =>
    let lane := c % 128
    let per := (all.filter fun a => a % 128 == lane).length
    let k := (q.row0 + r) * per + (all.filter fun a => a % 128 == lane && a < c).length
    let b := if q.ctl.round == .sr then q.rand.byte true lane k else 0
    let x := xs.getD (c - q.col0) (Ext.zero, false)
    (Elem.bf16.narrow q.ctl.round q.ctl.prop false b x.1, x.2)
  (gs.map fun g =>
      g.map (fun y => { code := y.1.code, poison := y.2, own := y.1.poison }) ++ List.replicate (8 - g.length) { code := 0 },
   gs.flatMap fun g => g.flatMap fun y => y.1.counts)

/-- One scale block narrowed, `c` its first column. `gone` marks the columns an output mask removes (R102). -/
def Conv.narrowBlock (q : Conv) (st : Ext) (stP : Bool) (r c : Nat) (gone : List Bool) (xs : List PV) :
    List OutCell × (Nat × Bool) × List Nat :=
  let kept := (List.zip xs (gone ++ List.replicate xs.length false)).filterMap fun p => if p.2 then none else some p.1
  let a := amaxOf kept
  let scaled := q.kind != .none
  -- amax over the tensor scale
  let q1 := match (Ext.fin false a.n a.d).div st with | .fin _ u v => (u, v) | _ => (0, 1)
  let bs := if scaled then blockScale q.kind q.elem q.ctl.mx q1.1 q1.2 else (0, [])
  let sb := if scaled then q.kind.value bs.1 else .one
  let bsP := scaled && a.poison
  let div := st.mul sb
  let res := xs.mapIdx fun i x =>
    if gone.getD i false then ({ code := if q.elem == .b1 then 0 else q.elem.zeroCode false : Narrow }, false)
    else
      let v := if scaled && !div.isZero && x.1.isFin then x.1.div div else x.1
      (q.elem.narrow q.ctl.round q.ctl.prop scaled (q.byteOf r (c + i)) v, x.2 || bsP || stP)
  let nanScale := res.any (·.1.scaleNan)
  let code := if nanScale then q.kind.nanCode else bs.1
  (res.map fun y => { code := y.1.code, poison := y.2, own := y.1.poison },
   (code, bsP),
   bs.2 ++ (if nanScale then [SCALE_NAN] else []) ++ res.flatMap (·.1.counts))

/-- Blocks of a row in order. -/
def Conv.narrowBlocks (q : Conv) (st : Ext) (stP : Bool) (r : Nat) : Nat → List Bool → List (List PV) →
    List OutCell × List (Nat × Bool) × List Nat
  | _, _, [] => ([], [], [])
  | c, gone, b :: bs =>
    let x := q.narrowBlock st stP r c gone b
    let y := q.narrowBlocks st stP r (c + b.length) (gone.drop b.length) bs
    (x.1 ++ y.1, x.2.1 :: y.2.1, x.2.2 ++ y.2.2)

/-- A prepared row narrowed under its tensor scale (R61). -/
def Conv.narrowRow (q : Conv) (st : Ext) (stP : Bool) (r : Nat) (gone : List Bool) (xs : List PV) : RowOut :=
  if q.raw32 && q.elem == .fp32 then
    { cells := xs.mapIdx fun i x => if gone.getD i false then { code := 0 } else { code := (rne32 x.1).toNat, poison := x.2 }
      scales := [], side := [], counts := [] }
  else
    let bs := if q.kind == .none then [xs] else runs q.block q.col0 xs
    let y := q.narrowBlocks st stP r q.col0 gone bs
    { cells := y.1, scales := if q.kind == .none then [] else y.2.1, side := [], counts := y.2.2 }

/-- A whole conversion of rows numbered from `r0` with the tensor scale given (R61). -/
def Conv.run (q : Conv) (st : Ext) (stP : Bool) (gone : List (List Bool)) (rows : List (List PV)) : List RowOut :=
  rows.mapIdx fun r xs =>
    let sd := q.sideOf r xs
    let o := q.narrowRow st stP r (gone.getD r []) (q.prepare xs)
    { o with side := sd.1, counts := sd.2 ++ o.counts }

/-- The tensor scale of an amax and the counters it touches (R65). -/
def Conv.tensorScaleOf (q : Conv) (a : Amax) : F32 × List Nat := tensorScale q.elem q.ctl.headroom a.n a.d

end Sys2Proof.Machine
end

