-- ==== Sys2Proof/Machine/Operands.lean ====
section
/-! DEFINITION. The field maps of the words an item is made of: instruction word (R120), operand, tile, drain,
conversion and copy descriptors (R107, R128, R130, R134, R136), stream and trestle contexts (R122, R164), span handle
(R22). A map is read from the little-endian number the item's bytes make (R4). -/

namespace Sys2Proof.Machine

/-- The code MBANKREAD and the counters give an array (R137). -/
def Arr.code : Arr → Nat | .f => 0 | .b0 => 1 | .b1 => 2 | .t => 3

def Arr.ofCode (n : Nat) : Arr := match n % 4 with | 0 => .f | 1 => .b0 | 2 => .b1 | _ => .t

/-! ### Instruction word (R120) -/

/-- The 128-bit instruction word. -/
abbrev IWord := Nat

namespace IWord
def opcode (w : IWord) : Nat := fld w 7 0
def engine (w : IWord) : Nat := fld w 11 8
def waitId (w : IWord) : Nat := fld w 27 12
def sigId (w : IWord) : Nat := fld w 43 28
def sigPar (w : IWord) : Bool := bitOf w 44
def waitPar (w : IWord) : Bool := bitOf w 45
/-- NONE is 0; a value out of range takes the default GE. -/
def waitGE (w : IWord) : Bool := fld w 47 46 != 0
def sigEn (w : IWord) : Bool := bitOf w 48
def waitLoop (w : IWord) : Bool := bitOf w 49
def waitVal (w : IWord) : Nat := fld w 63 50
/-- The descriptor index of the operand, bits [127:112]. -/
def didx (w : IWord) : Nat := fld w 127 112
def tCont (w : IWord) : Bool := bitOf w 111
def tLast (w : IWord) : Bool := bitOf w 110
def tLend (w : IWord) : Bool := bitOf w 109
def tRowT (w : IWord) : Bool := bitOf w 108
def tColT (w : IWord) : Bool := bitOf w 107
def rsig (w : IWord) : Bool := bitOf w 111
end IWord

/-- Opcodes (R120, R228). -/
abbrev OP_TPROD : Nat := 0x10
abbrev OP_TBPROD : Nat := 0x20
abbrev OP_VRUN : Nat := 0x30
abbrev OP_QAMAX : Nat := 0x40
abbrev OP_QCHAMAX : Nat := 0x41
abbrev OP_QCONV : Nat := 0x42
abbrev OP_MCOPY : Nat := 0x50
abbrev OP_MFILL : Nat := 0x51
abbrev OP_MBANKREAD : Nat := 0x52
abbrev OP_SWAIT : Nat := 0x60
abbrev OP_SADD : Nat := 0x61
abbrev OP_SSET : Nat := 0x62
abbrev OP_SSPAN : Nat := 0x63
abbrev OP_LOOP : Nat := 0x70
abbrev OP_LOOPM : Nat := 0x71
abbrev OP_ENDLOOP : Nat := 0x72
abbrev OP_FENCE : Nat := 0x73
abbrev OP_GATE : Nat := 0x74
abbrev OP_END : Nat := 0x75
abbrev OP_BRIDX : Nat := 0x76
abbrev OP_MARK : Nat := 0x80
abbrev OP_UP1 : Nat := 0x90
abbrev OP_UP2 : Nat := 0x91
abbrev OP_UCOPY : Nat := 0x92

/-- Engine codes (R120). -/
abbrev ENG_SEQ : Nat := 0
abbrev ENG_F : Nat := 1
abbrev ENG_B0 : Nat := 2
abbrev ENG_B1 : Nat := 3
abbrev ENG_BANY : Nat := 4
abbrev ENG_T : Nat := 5
abbrev ENG_V : Nat := 6
abbrev ENG_M : Nat := 7
abbrev ENG_CAMBER : Nat := 8

/-! ### Operand descriptor (R130) -/

structure OpDesc where
  base : Nat
  fmtField : Nat
  fmt : Option Fmt
  rows : Nat
  inner : Nat
  stride : Nat
  bscale : Nat
  tscale : Nat
  smoothAddr : Nat
  outlAddr : Nat
  maskAddr : Nat
  zmapAddr : Nat
  sideAddr : Nat
  maskEn : Bool
  maskT : Bool
  zmapEn : Bool
  sideEn : Bool
deriving DecidableEq, Repr

/-- The packed row size of a tensor, masked rows in the size of R99. -/
def packedRow (f : Option Fmt) (maskEn : Bool) (inner : Nat) : Nat :=
  match f with
  | none => 0
  | some f => f.elem.rowBytes (if maskEn then cdiv inner 8 * 4 else inner)

def OpDesc.ofNat (v : Nat) : OpDesc :=
  let fw := fld v 463 448
  let f := Fmt.ofField fw
  let inner := fld v 415 384
  let me := bitOf v 15
  { base := fld v 511 464, fmtField := fw, fmt := f, rows := fld v 447 416, inner := inner,
    stride := max (fld v 383 352) (packedRow f me inner)
    bscale := fld v 351 304, tscale := fld v 303 256, smoothAddr := fld v 255 208, outlAddr := fld v 207 160,
    maskAddr := fld v 159 112, zmapAddr := fld v 111 64, sideAddr := fld v 63 16,
    maskEn := me, maskT := bitOf v 14, zmapEn := bitOf v 13, sideEn := bitOf v 12 }

/-- An operand descriptor whose element code, where its use does not take it, is the default of that use (R165, R298). -/
def takeElem (ok : Nat → Bool) (d v : Nat) : Nat := if ok (fld v 452 448) then v else setFld v 452 448 d

/-- The output of a trestle job: FP32 (R165). -/
def trestleOut (v : Nat) : Nat := takeElem (· == Elem.fp32.code) Elem.fp32.code v

/-- The destination of a reduction: G12, BF16, FP16 or FP32, by default G12 (R298). -/
def reduceOut (v : Nat) : Nat := takeElem (fun x => 0x0B ≤ x && x ≤ 0x0E) 0x0B v

/-- Element format of a usable descriptor. -/
def OpDesc.elem (o : OpDesc) : Elem := match o.fmt with | some f => f.elem | none => .b1

/-- Blocks of a row (R41, R130). -/
def OpDesc.blocks (o : OpDesc) : Nat := match o.fmt with | some f => cdiv o.inner f.block | none => 0

/-! ### Tile descriptor (R128) -/

structure TileDesc where
  rowOp : Nat
  colOp : Nat
  drain : Nat
  mLen : Nat
  nLen : Nat
  kLen : Nat
  mOff : Nat
  nOff : Nat
  kOff : Nat
  dm0 : Int
  dn0 : Int
  dk0 : Int
  dm1 : Int
  dn1 : Int
  dk1 : Int
deriving DecidableEq, Repr

def TileDesc.ofNat (v : Nat) : TileDesc :=
  { rowOp := fld v 511 496, colOp := fld v 495 480, drain := fld v 479 464,
    mLen := min (fld v 463 458) 47 + 1, nLen := fld v 457 450 + 1, kLen := fld v 449 430 + 1,
    mOff := fld v 429 398, nOff := fld v 397 366, kOff := fld v 365 334,
    dm0 := sext 16 (fld v 333 318), dn0 := sext 16 (fld v 317 302), dk0 := sext 16 (fld v 301 286),
    dm1 := sext 16 (fld v 285 270), dn1 := sext 16 (fld v 269 254), dk1 := sext 16 (fld v 253 238) }

/-- A tile's place: output origin, reduction origin and lengths. -/
structure Place where
  m : Int
  n : Int
  k : Int
  mLen : Nat
  nLen : Nat
  kLen : Nat
deriving DecidableEq, Repr

/-- The origin at issue from the two innermost loop indices (R128). -/
def TileDesc.place (t : TileDesc) (l0 l1 : Nat) : Place :=
  { m := t.mOff + t.dm0 * l0 + t.dm1 * l1, n := t.nOff + t.dn0 * l0 + t.dn1 * l1,
    k := t.kOff + t.dk0 * l0 + t.dk1 * l1, mLen := t.mLen, nLen := t.nLen, kLen := t.kLen }

/-! ### Drain descriptor (R107) -/

structure DrainDesc where
  alpha : F32
  ctlWord : Nat
  outDesc : Nat
  auxDesc : Nat
  biasAddr : Nat
  cscaleAddr : Nat
  vprog : Nat
  zmapAddr : Nat
  func : Nat
  fmode : Nat
  auxElem : Elem
  outmask : Bool
  biasEn : Bool
  cscaleEn : Bool
  vhookEn : Bool
  zmapEn : Bool
deriving DecidableEq, Repr

def DrainDesc.ofNat (v : Nat) : DrainDesc :=
  let a := BitVec.ofNat 32 (fld v 511 480)
  { alpha := if finite32 a then a else fOne
    ctlWord := fld v 479 448, outDesc := fld v 447 400, auxDesc := fld v 399 352, biasAddr := fld v 351 304,
    cscaleAddr := fld v 303 256, vprog := fld v 255 208, zmapAddr := fld v 207 160, func := fld v 159 155,
    fmode := if fld v 154 153 == 3 then 0 else fld v 154 153
    auxElem := if fld v 152 148 == 0x0B then .g12 else .bf16
    outmask := bitOf v 147, biasEn := bitOf v 146, cscaleEn := bitOf v 145, vhookEn := bitOf v 144, zmapEn := bitOf v 143 }

/-! ### Conversion and copy descriptors (R134, R136) -/

structure ConvDesc where
  srcOp : Nat
  dstOp : Nat
  amaxAddr : Nat
  chamaxAddr : Nat
  rowOff : Nat
  rowCnt : Nat
  dr0 : Int
  dr1 : Int
  fromCells : Bool
  wire : Bool
deriving DecidableEq, Repr

def ConvDesc.ofNat (v : Nat) : ConvDesc :=
  { srcOp := fld v 511 496, dstOp := fld v 495 480, amaxAddr := fld v 479 432, chamaxAddr := fld v 431 384,
    rowOff := fld v 383 352, rowCnt := fld v 351 320, dr0 := sext 16 (fld v 319 304), dr1 := sext 16 (fld v 303 288),
    fromCells := bitOf v 287, wire := bitOf v 286 }

structure CopyDesc where
  src : Nat
  dst : Nat
  rowBytes : Nat
  rows : Nat
  srcStride : Nat
  dstStride : Nat
  src0 : Int
  dst0 : Int
  src1 : Int
  dst1 : Int
deriving DecidableEq, Repr

def CopyDesc.ofNat (v : Nat) : CopyDesc :=
  { src := fld v 511 448, dst := fld v 447 384, rowBytes := fld v 383 352, rows := fld v 351 320,
    srcStride := fld v 319 288, dstStride := fld v 287 256,
    src0 := sext 32 (fld v 255 224), dst0 := sext 32 (fld v 223 192), src1 := sext 32 (fld v 191 160), dst1 := sext 32 (fld v 159 128) }

/-- Bytes per row of a fill: rounded up to a multiple of 4, where the field can hold it (R6, R136). -/
def CopyDesc.fillBytes (c : CopyDesc) : Nat := min (cdiv c.rowBytes 4 * 4) 4294967292

/-! ### Contexts -/

/-- A stream context (R122). -/
structure SCtx where
  prog : Nat
  dbase : Nat
  plen : Nat
  lendEn : Bool
  active : Bool
deriving DecidableEq, Repr

def SCtx.ofNat (v : Nat) : SCtx :=
  { prog := fld v 255 208, dbase := fld v 207 160, plen := fld v 159 144, lendEn := bitOf v 143, active := bitOf v 142 }

/-- A span handle (R22). -/
structure Handle where
  level : Nat
  pier : Nat
  index : Nat
deriving DecidableEq, Repr

def Handle.ofNat (v : Nat) : Handle := { level := fld v 31 29, pier := fld v 28 17, index := fld v 11 0 }

end Sys2Proof.Machine
end

