-- ==== Sys2Proof/Machine/State.lean ====
section
/-! DEFINITION. The state of one pier as plain data, and the state after reset. -/

namespace Sys2Proof.Machine

/-! ### Streams (R120 to R149) -/

/-- An open loop (R144): index of its LOOP instruction, iterations, and present index. -/
structure LoopFrame where
  start : Nat
  count : Nat
  idx : Nat
deriving DecidableEq, Repr

/-- Where a signal goes: an object of this pier or of another (R136), and the amount. -/
structure Sig where
  id : Nat
  pier : Option Nat := none
  amount : Nat := 1
  /-- core slot or camber unit of the stream that sends it, for tag bit 0 of its message (R283) -/
  core : Nat := 0
deriving DecidableEq, Repr

/-- An instruction issued and not yet completed, or completed with its signal still held (R125, R126). -/
structure InFlight where
  seq : Nat
  pc : Nat
  idxs : List Nat
  word : Nat
  /-- its work has reached the completion point of R125 -/
  done : Bool := false
  /-- its completion has been taken, and its signal waits for earlier ones -/
  completed : Bool := false
  clamped : Bool := false
  sig : Option Sig := none
deriving DecidableEq, Repr

/-- The format epoch of a tile product (R112). -/
structure Epoch where
  rowFmt : Nat
  colFmt : Nat
  rowMask : Bool
  colMask : Bool
  rowT : Bool
  colT : Bool
  drain : Nat
deriving DecidableEq, Repr

/-- The open chain of a stream (R127). -/
structure Chain where
  arr : Arr
  bank : Nat
  slot : Nat
  epoch : Epoch
  mLen : Nat
  nLen : Nat
deriving DecidableEq, Repr

/-- What holds a stream (R437). -/
inductive Phase where
  | inactive | ready | waitSync | waitEngine | waitFence | gate | ended | stopped
deriving DecidableEq, Repr

/-- One stream. -/
structure StreamSt where
  pc : Nat := 0
  phase : Phase := .inactive
  /-- ACLK count at which the phase was entered -/
  since : Nat := 0
  loops : List LoopFrame := []
  step : Nat := 0
  /-- the GATE of the present step has passed (R139, R146) -/
  gated : Bool := false
  /-- the camber unit is ready for the step (R228) -/
  ready : Bool := false
  chain : Option Chain := none
  /-- open BEGIN markers, latest first (R430) -/
  marks : List Nat := []
  nextSeq : Nat := 0
  inflight : List InFlight := []
  /-- executions whose signal was delivered in this step, kept for a restart after rebinding (R147) -/
  delivered : List (Nat × List Nat) := []
  /-- executions whose signal is not to be delivered again (R147) -/
  muted : List (Nat × List Nat) := []
deriving DecidableEq, Repr

/-! ### Arrays, slots and drains (R87 to R119) -/

/-- One accumulator pair, its side-path pair, and its poison bit (R78, R88, R96). -/
structure Acc where
  s : F32 := 0#32
  c : F32 := 0#32
  ss : F32 := 0#32
  sc : F32 := 0#32
  poison : Bool := false
deriving DecidableEq, Repr

/-- A tile issued to an array: its stream and instruction, operands, place and slot. -/
structure TileRun where
  stream : SRef
  seq : Nat
  word : Nat
  rowAddr : Nat
  colAddr : Nat
  place : Place
  bank : Nat
  slot : Nat
  last : Bool
deriving DecidableEq, Repr

/-- One slot of an accumulator bank in use (R88). -/
structure SlotSt where
  acc : List (List Acc)
  mLen : Nat
  nLen : Nat
  /-- output origin of the tile that opened the slot -/
  m : Int
  n : Int
  /-- column operand, for the output mask of R102 -/
  colAddr : Nat
  stream : SRef
  step : Nat
  /-- instruction that completes with the drain; none where the chain was closed for want of last = 1 -/
  seq : Option Nat := none
  side : Bool := false
  /-- a tile of the chain failed the pairing check of R72 -/
  mismatch : Bool := false
  /-- the reduction is complete and the slot waits for the drain path, or drains -/
  full : Bool := false
  /-- chain closed: the slot fills once the tiles still queued for it are accumulated -/
  closing : Bool := false
  recovery : Bool := false
  lent : Bool := false
deriving DecidableEq, Repr

/-- A bank: its epoch tag and its two slots (R112). -/
structure BankSt where
  epoch : Option Epoch := none
  s0 : Option SlotSt := none
  s1 : Option SlotSt := none
deriving DecidableEq, Repr

/-- One array of a core slot. -/
structure ArraySt where
  x : BankSt := {}
  y : BankSt := {}
  /-- tiles issued and not yet accumulated, in issue order -/
  queue : List TileRun := []
  /-- completed slots in the order of completion, the first one waiting for or on the drain path (R109) -/
  full : List (Nat × Nat) := []
  draining : Bool := false
  /-- streams stalled for a slot, earliest first, with the ACLK count at the stall (R113) -/
  stalled : List (SRef × Nat) := []
deriving DecidableEq, Repr

/-! ### Other units -/

/-- The trestle unit's job list of a cluster slot (R164 to R166): the step it is in and the next job. -/
structure TrestleSt where
  step : Nat := 0
  running : Bool := false
  pos : Nat := 0
deriving DecidableEq, Repr

/-- What UP1 leaves for the vote and for pass 2 of one layer (R229, R230). -/
structure LayerRes where
  step : Nat
  addr : Nat
  af : Amax
  ab : Amax
  wnorm : F32
  gnorm : F32
  gs : F32
  gc : F32
  norm : Bool
  poison : Bool
  nf : Bool
deriving DecidableEq, Repr

/-! ### Plan and job -/

/-- The plan in force (R358 to R363): what the load record and its tables leave with the device. -/
structure PlanSt where
  loaded : Bool := false
  planId : Nat := 0
  seed : Nat := 0
  collCtx : Nat := 0
  stepUs : Nat := 0
  collUs : Nat := 0
  updateUs : Nat := 0
  hangMs : Nat := 60000
  powerW : Nat := 0
  debug : Bool := false
  steps : Nat := 0
  /-- members and spares of the job, and what JOB_START compares of the sections (R360) -/
  members : List Nat := []
  spares : List Nat := []
  sections : List (Nat × Nat × Nat) := []
  /-- sum of the amounts a complete pass 2 signals to an UPDATE object (R396) -/
  updateSums : List (Nat × Nat) := []
  /-- leaf position of this pier in the job's top span (R27, R81) -/
  leaf : Nat := 0
  /-- regions read-only while the plan is loaded: program regions and descriptors (R121) -/
  readonly : List (Nat × Nat) := []
  /-- piers the job owns (R22) -/
  piers : List Nat := []
  /-- sync objects whose entries the plan writes (R138) -/
  syncs : List Nat := []
  /-- leaves served by a spare pier: the pier of the leaf and the spare (R27, R406) -/
  subst : List (Nat × Nat) := []
deriving DecidableEq, Repr

/-- The job (R360, R402, R403). -/
structure JobSt where
  running : Bool := false
  startStep : Nat := 0
  /-- every step below this one has passed or skipped its gate on this pier -/
  decided : Nat := 0
  attempt : Nat := 0
  lastSkip : Bool := false
  /-- steps that a first stream of the pier has begun (R145) -/
  begun : List Nat := []
  /-- what holds streams at GATE: 1 operator, 5 a question about a hang, and 4 the job's end hold F- and B-streams; 2 recovery and 3 a
  compute-reset notice hold all (R321, R364, R396, R407) -/
  holds : List Nat := []
  /-- piers under a compute-reset notice (R396) -/
  notices : List Nat := []
  /-- status with which the job ends once pass 2 has completed -/
  ending : Option Nat := none
  /-- signals to STEP objects are dropped until the reset of R148 -/
  dropSignals : Bool := false
  /-- pass 2 wrote poison or a fault met a committed update: the job returns to falsework (R241) -/
  needRecovery : Bool := false
  /-- an instruction of the job completed with DONE_CLAMPED -/
  clampedSeen : Bool := false
  /-- gate fault bits gathered by step (R231) -/
  faults : List (Nat × Nat) := []
  /-- steps to run from the start, 0 for no limit, and the command that started the job (R360) -/
  steps : Nat := 0
  cmdId : Option Nat := none
  /-- JOB_START's exchange: this pier's record, and the records of others by pier -/
  starting : Bool := false
  records : List (Nat × JobRecord) := []
  /-- ACLK count at the last boundary, for STEP_LATE -/
  stepAt : Nat := 0
  replayed : Bool := false
  degraded : Bool := false
deriving DecidableEq, Repr

/-- One clamp entry (R348). -/
structure ClampRec where
  kind : Nat
  clamp : Nat
  widthM1 : Nat
  bitOff : Nat
  ctx : Nat := 0
  index : Nat := 0
  supplied : Nat := 0
  used : Nat := 0
deriving DecidableEq, Repr

/-- Counter banks by the unit they belong to (R84, R118, R161, R196, R216, R247, R268, R294, R318, R346, R423, R438). -/
inductive Bank where
  | drain (core : Nat) (a : Arr) | atrest (core : Nat) | wire (core : Nat) | link (e : Nat) | camberConv (k : Nat)
  | activity (core : Nat) (a : Arr) | table (core : Nat) | attn (core : Nat) | page | routing (core : Nat)
  | camber (k : Nat) | gate | memCore (p : Nat) | memCluster (p : Nat) | memHbm (p : Nat) | memDdr (p : Nat)
  | port (p : Nat) | coll | recv | hiding | obsSlot (s : Nat) | obsPier | host
  /-- sample events of a core that no other bank counts (R426) -/
  | sample (core : Nat)
deriving DecidableEq, Repr

/-! ### Pages (R187 to R194) -/

/-- A page being moved between its frame and its spill location: pool entry, direction, and whether a lease or a write
arrived before the landing (R193). -/
structure Flight where
  entry : Nat
  out : Bool
  keep : Bool := false
  /-- the fetch was started by a lease, a read or a write -/
  wanted : Bool := true
deriving DecidableEq, Repr

/-- A page action that waits for a flight or for a frame (R189, R193). -/
inductive PageWait where
  | write (p : PagePart) | read (p : PagePart) | clear (win : Nat)
deriving DecidableEq, Repr

/-- The page manager's own tables (R190, R192, R193). A layer-head is (slot, layer, KV head). -/
structure PageSt where
  leases : List ((Nat × Nat × Nat) × Nat) := []
  /-- layer-heads by their most recent RELEASE, earliest first -/
  released : List (Nat × Nat × Nat) := []
  flights : List Flight := []
  waiting : List PageWait := []
deriving DecidableEq, Repr

/-! ### Attention kernels in progress (R174, R177, R181) -/

/-- One row of a forward kernel between two rounds of its walk. -/
structure AttnRow where
  m : F32
  l : F32 × F32
  o : List (F32 × F32)
  bad : Bool
  anyvis : Bool
  poison : Bool
  /-- backward: the pair sums of dQ, and D of the row -/
  dd : F32 := 0#32
deriving DecidableEq, Repr

/-- A kernel that has issued and walks its rounds (R180, R183). -/
structure KernelSt where
  round : Nat
  band : Nat
  rows : List AttnRow
deriving DecidableEq, Repr

/-! ### Routing (R197 to R216) -/

/-- What ROUTE keeps with a dispatch list beside its stored words: its non-finite tokens and the expert each choice
selected before capacity (R201, R202). -/
structure RouteNote where
  nonfinite : List Nat
  selected : List (Option Nat)
deriving DecidableEq, Repr

/-! ### The viaduct (R271 to R294) -/

/-- Port states of a link map entry (R290). -/
inductive PortState where
  | down | training | up | miswired | disabled
deriving DecidableEq, Repr

/-- One viaduct port. -/
structure PortSt where
  state : PortState := .down
  /-- retired by exhausted retry or for want of lanes (R279, R280) -/
  retired : Bool := false
  /-- mask of lanes not retired -/
  lanes : Nat := 15
  width : Nat := 0
  nbr : Option Ident := none
  txSeq : Nat := 0
  rxSeq : Nat := 0
  /-- a sequenced flit has been received since training -/
  gotAny : Bool := false
  /-- credits held at the other end, VC0 to VC3 -/
  credits : List Nat := [0, 0, 0, 0]
  /-- credits to return -/
  owed : List Nat := [0, 0, 0, 0]
  /-- sequenced flits sent and not acknowledged, oldest first -/
  retry : List Flit := []
  /-- flits received since the last acknowledgement left -/
  sinceAck : Nat := 0
  /-- sequenced flits are discarded until the expected one arrives (R278) -/
  awaiting : Bool := false
  /-- the sequence number last requested of this sender, and how often -/
  reqSeq : Nat := 0
  reqCount : Nat := 0
  /-- how often this end has requested the flit it awaits -/
  asked : Nat := 0
  /-- training attempts since the port last left DOWN (R287) -/
  attempts : Nat := 0
deriving DecidableEq, Repr

/-- A flit that waits to leave: the port and channel whose buffer holds it (none for one this pier injects), and the
port it takes where that is fixed (COLL). -/
structure Held where
  src : Option (Nat × Nat) := none
  port : Option Nat := none
  flit : Flit
deriving DecidableEq, Repr

/-- A read asked of another pier whose answer has not wholly landed (R274). -/
structure ReadOut where
  stream : SRef
  seq : Nat
  addr : Nat
  left : Nat
deriving DecidableEq, Repr

/-- Where a fabric epoch change stands (R284). -/
inductive ChangePhase where
  | idle | wanted | draining | quiet
deriving DecidableEq, Repr

/-- Roll call on this pier (R288 to R290): its root and parameters, and, on the root, the command that started it. -/
structure RollSt where
  running : Bool := false
  isRoot : Bool := false
  root : Nat := 0
  spareBase : Nat := 0
  /-- coordinates taken from an announcement, or the root's -/
  placed : Bool := false
  cmdId : Nat := 0
  /-- port toward the root, over which link maps travel -/
  parent : Nat := 0
  /-- the ID this pier takes at the epoch change that ends the roll call -/
  id : Nat := 0xFFF
deriving DecidableEq, Repr

/-- The viaduct as this pier holds it. -/
structure NetSt where
  ports : List (Nat × PortSt) := []
  chain : Bool := false
  ex : Nat := 1
  ey : Nat := 1
  ez : Nat := 1
  x : Nat := 0
  y : Nat := 0
  z : Nat := 0
  /-- attached by express ports alone (R289) -/
  spare : Bool := false
  /-- route table entries by destination; an unlisted one is UNREACHABLE (R284) -/
  routes : List (Nat × Nat) := []
  /-- members of multicast groups (R29, R285) -/
  groups : List (Nat × List Nat) := []
  /-- member handles of the composite spans installed, by index, as their creation kept them (R23, R24) -/
  spanLists : List (Nat × List Nat) := []
  /-- link maps of the system, as the present tables were computed from -/
  maps : List PierMap := []
  /-- link maps gathered or received for the next tables -/
  newMaps : List PierMap := []
  /-- ports that were UP when the present tables were installed (R281) -/
  live : List Nat := []
  epoch : Bool := false
  stopped : Bool := false
  change : ChangePhase := .idle
  /-- piers that have reported drained -/
  drained : List Nat := []
  held : List Held := []
  /-- flits that have left, by port -/
  wire : List (Nat × Flit) := []
  reads : List ReadOut := []
  roll : RollSt := {}
  /-- a pier whose detachment waits for its epoch change, and its command (R291) -/
  detach : Option (Nat × Nat) := none
deriving DecidableEq, Repr

/-! ### Collectives (R295 to R308) -/

/-- A collective in flight on this pier: its list entry's word, descriptor and descriptor base, step, and what is
still to come. An operator's collective has no list entry, and names its command. -/
structure CollRun where
  coll : Nat
  desc : Nat
  dbase : Nat
  step : Nat
  entry : Nat := 0
  op : Option Nat := none
  /-- messages still to come: sending leaf and part -/
  waiting : List (Nat × CollPart) := []
  /-- chains that have ended on this pier: phase, strand, owner -/
  closed : List (Nat × Nat × Nat) := []
  /-- hops that wait for this pier's own term of an earlier phase -/
  stash : List (CollHead × List (Byte × Bool)) := []
  /-- assigned counts received, by expert: source, leaf, count (R206) -/
  counts : List (Nat × (Nat × Nat × Nat)) := []
  /-- local experts whose rows have landed and been closed (R207) -/
  landed : List Nat := []
  /-- a signature differed: nothing of the collective is written (R307) -/
  bad : Bool := false
deriving DecidableEq, Repr

/-- The collective engine of the pier. -/
structure CollSt where
  /-- step whose list runs, and the next entry -/
  step : Nat := 0
  started : Bool := false
  pos : Nat := 0
  runs : List CollRun := []
  /-- messages in pieces, by source pier and head -/
  parts : List ((Nat × CollHead) × List (Byte × Bool)) := []
  /-- whole messages whose collective has not started here -/
  early : List (CollHead × Nat × List (Byte × Bool)) := []
  /-- accepted counts of the forward count phase, by dispatch list and expert: source, leaf, count (R206) -/
  accepts : List ((Nat × Nat) × List (Nat × Nat × Nat)) := []
  /-- operators' collectives that have completed, and whether a trailer differed -/
  opDone : List (Nat × Bool) := []
deriving DecidableEq, Repr

/-! ### Units, fuses and the floor plan (R10 to R21) -/

/-- What the floor plan says of a unit that is not good: state (2 BAD, 3 RETIRED), source and reason codes (R21). -/
structure UnitRec where
  state : Nat
  source : Nat
  reason : Nat
deriving DecidableEq, Repr

/-- A retirement that waits for a step boundary. -/
structure Retire where
  kind : Nat
  index : Nat
  reason : Nat
deriving DecidableEq, Repr

/-- Binding of slots to physical units (R12 to R17); an unlisted slot is unserved, an unlisted unit is good. -/
structure FloorPlan where
  coreBind : List (Nat × Nat) := []
  clusterBind : List (Nat × Nat) := []
  /-- core slots in recovery mode (R116) -/
  recovery : List Nat := []
  units : List ((Nat × Nat) × UnitRec) := []
  /-- cluster slots on a reduced placement, with the core slot lost (R16) -/
  reduced : List (Nat × Nat) := []
  /-- physical cores whose F-engine is retired (R117) -/
  fRetired : List Nat := []
  /-- report generation (R20) -/
  gen : Nat := 0
deriving DecidableEq, Repr

/-- Fuses and boot ROM contents of one module: units marked bad, serial, identity, owner binding, MAC addresses and
revoked key slots (R338, R369, R387). -/
structure Fuses where
  bad : List (Nat × Nat) := []
  serial : Nat := 0
  identHash : Nat := 0
  owner : Option Nat := none
  mac0 : Nat := 0
  mac1 : Nat := 0
  revoked : Nat := 0
  /-- SHA-256 of the vendor key of each boot ROM slot (R369) -/
  romKeys : List Nat := [0, 0, 0, 0]
deriving DecidableEq, Repr

/-! ### Power, pins, clocks and bring-up (R385 to R399, R440 to R446) -/

/-- Where the pier stands between power and ready (R387, R441). -/
inductive Boot where
  /-- no rails -/
  | off
  /-- rails up, RESET_N low -/
  | held
  /-- steps 1 to 5: start-up test running -/
  | testing
  /-- steps 6 to 9: floor plan reconciled, no bundle -/
  | linked
  /-- step 11: bundle loaded, memory training -/
  | training
  /-- step 13: memory test -/
  | memTest
  | ready
  /-- bring-up stopped (R391) -/
  | dead
deriving DecidableEq, Repr

structure Sys where
  boot : Boot := .held
  vinOk : Bool := true
  pwrEn : Bool := true
  pwrGood : Bool := true
  resetN : Bool := false
  computeResetN : Bool := true
  /-- a compute reset stands, until rejoin (R395) -/
  computeReset : Bool := false
  /-- COMPUTE_RESET_N fell before the pier was ready (R388) -/
  earlyComputeReset : Bool := false
  slotId : Nat := 0
  /-- dies whose root PLL has lost lock: 0 to 3 deck, 4 and 5 abutment (R386) -/
  pllLost : List Nat := []
  /-- the DDR5 tier has stayed in self-refresh since the last full start (R337) -/
  retained : Bool := false
  keepDdr : Bool := false
  /-- populated DDR5 sockets (R257) -/
  dimms : Nat := 0
  /-- array issue withheld to keep the power limit (R444) -/
  powerHold : Bool := false
  /-- deck dies whose array issue is withheld by heat (R446) -/
  heatHold : List Nat := []
  /-- input power samples of the last second, latest first -/
  power : List Nat := []
  /-- junction temperatures by die and the outlet, in 0.01 °C -/
  temps : List (Nat × Nat) := []
  outlet : Nat := 0
  thermN : Bool := true
deriving DecidableEq, Repr

/-! ### The host (R333 to R365) -/

/-- The open session (R339, R340). -/
structure Session where
  id : Nat
  key : List Byte
  /-- last sequence number accepted over UDP -/
  seq : Option Nat := none
  /-- sequence number the next ring entry must carry -/
  ringSeq : Nat := 0
  idleS : Nat
  notifyIp : Nat
  notifyPort : Nat
deriving DecidableEq, Repr

/-- An RDMA region (R349). -/
structure Region where
  base : Nat
  len : Nat
  perm : Nat
  rkey : Nat
  /-- a second range: the ring control block and a ring are one region each (R352) -/
  base2 : Nat := 0
  len2 : Nat := 0
deriving DecidableEq, Repr

/-- A queue pair (R344, R336): its rate is `rate` / 2 ^ `rexp` of the full one. -/
structure Qp where
  port : Nat
  qpn : Nat
  hostQpn : Nat
  error : Bool := false
  rate : Nat := 8
  rexp : Nat := 3
  /-- congestion has cut the rate, and it has not yet come back in full -/
  cut : Bool := false
deriving DecidableEq, Repr

/-- A record of the completion log (R355, R357): status none while the command is pending. -/
structure LogRec where
  cmdId : Nat
  seq : Nat
  opcode : Nat
  status : Option Nat := none
  clamps : Nat := 0
  result : Nat := 0
  /-- the reply sent, for a duplicate (R342) -/
  reply : List Byte := []
  ring : Bool := false
  notify : Bool := false
  port : Nat := 0
  /-- DONE-family conditions met on the way (R9) -/
  replayed : Bool := false
  degraded : Bool := false
  /-- poison and risk flags of its completion entry (R355) -/
  poison : Bool := false
  risk : Bool := false
deriving DecidableEq, Repr

/-- What leaves the Ethernet ports. -/
inductive HostMsg where
  /-- a reply or notification packet (R347, R356): port, destination address and UDP port, bytes -/
  | packet (port ip udp : Nat) (bytes : List Byte)
  /-- an RDMA acknowledgement, read response or NAK (R350) -/
  | ack (port qpn : Nat)
  | readData (port qpn : Nat) (bytes : List Byte)
  | nakAccess (port qpn : Nat)
  | nakInvalid (port qpn : Nat)
  | echo (port : Nat) (v6 : Bool) (bytes : List Byte)
  | neighbour (port target : Nat)
  | lease (port : Nat) (v6 : Bool) (addr : Nat)
  | release (port : Nat) (v6 : Bool) (addr : Nat)
  /-- a DHCP client asks for a lease: its client identifier and the host name it offers (R335, R451) -/
  | solicit (port : Nat) (v6 : Bool) (ident name : List Byte)
deriving DecidableEq, Repr

/-- A host wait (R141, R345). -/
structure HostWait where
  cmdId : Nat
  id : Nat
  value : Nat
  timeoutMs : Nat
deriving DecidableEq, Repr

/-- One Ethernet port (R334, R335). -/
structure EthSt where
  up : Bool := false
  /-- training as 400GAUI-4 C2M; otherwise as 400GBASE-KR4 -/
  c2m : Bool := false
  v4 : Nat := 0
  v6 : Nat := 0
  static4 : Bool := false
  static6 : Bool := false
  linkLocal : Nat := 0
  vlan : Nat := 0
  /-- ACLK counts of the echo replies of the last second -/
  echoes : List Nat := []
deriving DecidableEq, Repr

/-- Where an operator stands on a pier (R320, R321). -/
inductive OpPhase where
  | queued | ready | running | parted
deriving DecidableEq, Repr

/-- An operator accepted and not yet complete: the pier that accepted it and its command, record and parameter block,
and its descriptors' CRC there. -/
structure OpRun where
  origin : Nat
  cmdId : Nat
  record : Nat
  block : Nat
  crc : Nat
  phase : OpPhase := .queued
  /-- its time has come: NOW, or the boundary has passed -/
  due : Bool := false
  /-- it runs for the second time (R331) -/
  again : Bool := false
  /-- on the pier that accepted it: what the piers answered -/
  ready : List (Nat × Nat × Nat) := []
  parts : List (Nat × Nat × Nat × List (Nat × List Nat)) := []
deriving DecidableEq, Repr

/-- An RDMA request held through a compute reset (R397): the data of a write, or the length of a read. -/
structure HeldRdma where
  port : Nat
  qpn : Nat
  va : Nat
  rkey : Nat
  len : Nat
  data : Option (List Byte)
deriving DecidableEq, Repr

/-- A slot write that has not taken effect: slot, descriptor, the run of pool entries reserved for it where it needs a
new one, and whether its boundary has passed (R169, R170). -/
structure SlotWrite where
  slot : Nat
  desc : Nat
  run : Option (Nat × Nat) := none
  due : Bool := false
deriving DecidableEq, Repr

structure HostSt where
  session : Option Session := none
  /-- challenge and the ACLK count at which it was drawn (R337) -/
  challenge : Option (List Byte × Nat) := none
  regions : List (Nat × Region) := []
  /-- ring size exponents (R353) -/
  ring : Option (Nat × Nat) := none
  log : List LogRec := []
  qps : List Qp := []
  /-- poison log: address, region, queue pair, ACLK count (R351) -/
  poisonLog : List (Nat × Nat × Nat × Nat) := []
  poisonLost : Nat := 0
  poisonSeen : Nat := 0
  poisonStep : Option Nat := none
  waits : List HostWait := []
  ops : List OpRun := []
  eth : List (Nat × EthSt) := []
  cmdPort : Nat := 47110
  classes : Nat := 0
  /-- ACLK counts of unauthenticated failure replies by port (R342) -/
  authReplies : List (Nat × Nat) := []
  /-- a deadline is at risk (R363) -/
  risk : Bool := false
  /-- clamp entries of RDMA writes that the next completion entry tells (R350) -/
  rdmaClamps : Nat := 0
  out : List HostMsg := []
  /-- commands accepted that run once the pier is ready or has rejoined (R387, R397): opcode and packet -/
  waiting : List (Nat × HostCmd) := []
  /-- aborts whose target has not completed: ABORT's command and the target (R364) -/
  aborts : List (Nat × Nat) := []
  slotWrites : List SlotWrite := []
  /-- span commands whose descriptor other piers have still to install: command, index, piers (R23) -/
  spanAcks : List (Nat × Nat × List Nat) := []
  held : List HeldRdma := []
  /-- NET_CONFIG's block until its reply has left (R335) -/
  newNet : Option Nat := none
deriving DecidableEq, Repr

/-! ### Firmware (R366 to R384) -/

/-- An image of the loaded bundle. -/
structure Image where
  cls : Nat
  version : Nat
  wdogMs : Nat
  crc : Nat
  bytes : List Byte
deriving DecidableEq, Repr

structure BundleSt where
  version : Nat
  iface : Nat
  images : List Image
deriving DecidableEq, Repr

/-- A running FW_REPLACE (R378 to R380). -/
structure ReplaceSt where
  cmdId : Nat
  image : Image
  /-- the first processor is on probation -/
  first : Nat × Nat
  /-- processors still on the old image -/
  old : List (Nat × Nat) := []
  /-- image versions before the first restart -/
  before : List ((Nat × Nat) × Nat) := []
deriving DecidableEq, Repr

/-- One wear log entry (R382). -/
structure WearRec where
  kind : Nat
  index : Nat
  event : Nat
  reason : Nat
  start : Nat
  step : Nat
  value : Nat
deriving DecidableEq, Repr

structure FwSt where
  /-- total length and chunks staged (R370) -/
  staging : Option (Nat × List (Nat × List Byte)) := none
  loadCmd : Option Nat := none
  bundle : Option BundleSt := none
  /-- a unit was marked for load failure -/
  degraded : Bool := false
  periods : List (Nat × Nat) := []
  /-- ACLK counts of recent watchdog expiries, by unit kind and index (R377) -/
  expiries : List ((Nat × Nat) × List Nat) := []
  versions : List ((Nat × Nat) × Nat) := []
  replace : Option ReplaceSt := none
  wearStart : Nat := 1
  wear : List WearRec := []
  wearDropped : Nat := 0
  handedBack : Bool := false
deriving DecidableEq, Repr

/-! ### The gate, recovery and falsework (R231 to R235, R400 to R419) -/

structure GateSt where
  /-- step and attempt this pier has voted for -/
  voted : Option (Nat × Nat) := none
  /-- at the lowest leaf: votes of the step and attempt by leaf -/
  votes : List (Nat × Nat) := []
  /-- result record that has arrived and is not yet applied -/
  arrived : Option Nat := none
  /-- result record of the last failed attempt, for recurrence (R402) -/
  lastFail : Option Nat := none
  /-- faults of the last failed attempt of the present step -/
  failFaults : Nat := 0
  /-- the job has returned to falsework once for this step (R403) -/
  returned : Option Nat := none
  retire : List Retire := []
  /-- uncorrected words at distinct addresses by unit: kind, index, key, ACLK count (R269) -/
  rows : List (Nat × Nat × Nat × Nat) := []
  /-- the poisoned word an attempt first read and did not write: address (R402) -/
  firstRead : Option Nat := none
  /-- core slot whose F-engine is under test, the test's outcome, and the slot that last passed one (R404) -/
  underTest : Option Nat := none
  testPass : Option Bool := none
  tested : Option Nat := none
  /-- the piers' answers to this pier's question about a hang (R464) -/
  hangAsk : Option (List (Nat × Bool)) := none
  /-- plan updates accepted: command, section list and count (R359) -/
  update : List (Nat × Nat × Nat) := []
  /-- piers that join at the next boundary, and piers asked whether they can, with the commands that named them (R361) -/
  assign : List (Nat × Nat) := []
  assignAsk : List (Nat × Nat) := []
  /-- an abort of the job waits for its boundary (R364) -/
  abort : Bool := false
  /-- counters as the present attempt found them; reading with clear takes what it cleared off (R245, R402) -/
  ctr0 : List ((Bank × Nat) × Int) := []
  /-- words the attempt wrote poisoned -/
  wrote : List Nat := []
  /-- the unit that first wrote poison without having read any: kind, physical index, and whether with a tile product of
  an F-engine -/
  writer : Option (Nat × Nat × Bool) := none
  /-- the stream whose wait passed the hang interval, and the object it waited on (R143) -/
  hung : Option (SRef × Option Nat) := none
  /-- a collective's signature differed (R402) -/
  sigFail : Bool := false
  /-- in-link reduction engine that carried a message whose data CRC failed -/
  badEngine : Option Nat := none
deriving DecidableEq, Repr

/-- A generation being written (R412 to R415): step, number, and layers whose shards have not been read, by unit and
layer descriptor index. -/
structure GenRun where
  step : Nat
  gen : Nat
  unread : List (Nat × Nat)
  /-- data position after its step -/
  dataPos : Nat := 0
  localDone : Bool := false
  buddyDone : Bool := false
deriving DecidableEq, Repr

/-- Falsework and recovery on this pier. -/
structure FalseSt where
  due : Bool := true
  /-- number of the last generation taken -/
  gens : Nat := 0
  /-- committed steps since it -/
  count : Nat := 0
  run : Option GenRun := none
  /-- the due step at whose boundary readiness is exchanged, and the piers' answers: pier, step, ready (R412) -/
  asked : Option Nat := none
  ready : List (Nat × Nat × Bool) := []
  /-- the buddy area here: shards verified, and shards sent again, as slot, shard, times (R415) -/
  landed : List (Nat × Nat) := []
  resent : List ((Nat × Nat) × Nat) := []
  /-- piers lost (R405), and the spare that takes a leaf's pier -/
  lost : List Nat := []
  /-- a restore is under way: copies are being verified -/
  verifying : Bool := false
  /-- low 32 bits of the step asked for, 0 for the choice of R417, and the operator that asked -/
  want : Nat := 0
  cmdId : Option Nat := none
  /-- reports of intact copies by pier -/
  copies : List (Nat × List CopyRec) := []
  /-- the generation being restored, whether for a loss, and the piers that have restored -/
  restoring : Option Nat := none
  restored : List Nat := []
  /-- arbitration: the disputed step and both copies' digests of this pier's leaf (R418) -/
  dispute : Option (Nat × List Nat × List Nat) := none
  /-- step at which the next JOB_START continues after a restore outside a job (R419) -/
  resumeAt : Option Nat := none
  /-- re-shard: command, descriptor block, phase (0 STAGE, 1 INSTALL), piers done, chunks sent again -/
  reshard : Option (Nat × Nat × Nat) := none
  reshardDone : List (Nat × Nat) := []
  reshardSent : List (Nat × Nat) := []
  /-- leaf positions of piers lost since it began -/
  reshardGone : List Nat := []
deriving DecidableEq, Repr

/-! ### Observability (R424 to R438) and ageing (R420) -/

/-- Trace buffer states (R431). -/
inductive TraceState where
  | disarmed | armed | post (left : Nat) | frozen | full
deriving DecidableEq, Repr

/-- One cluster slot's trace buffer: records in order, oldest first. -/
structure TraceBuf where
  state : TraceState := .disarmed
  recs : List Nat := []
  written : Nat := 0
  trigAt : Option Nat := none
  /-- records lost since the last LOST record -/
  lost : Nat := 0
deriving DecidableEq, Repr

structure TraceSt where
  mode : Nat := 0
  pre : Nat := 0
  trigMask : Nat := 0
  level : Bool := false
  spillAddr : Nat := 0
  spillMib : Nat := 0
  bufs : List (Nat × TraceBuf) := []
  /-- sampling: interval exponent, ring, records, core_en and selectors -/
  sampling : Bool := false
  interval : Nat := 10
  coreEn : Bool := false
  ringAddr : Nat := 0
  ringRecords : Nat := 1
  selectors : List Nat := []
  sampleSeq : Nat := 0
  /-- events counted since the last sample -/
  counts : List ((Bank × Nat) × Nat) := []
  /-- no sample has been taken since a compute reset (R428) -/
  countsLost : Bool := false
  /-- a compute reset has lost the slot banks' counts, and the banks cleared since (R85, R393) -/
  bankLost : Bool := false
  bankRead : List Bank := []
  /-- snapshot: taken, held, sequence (R436, R437) -/
  snapSeq : Nat := 0
  snapHeld : Bool := false
deriving DecidableEq, Repr

structure AgeSt where
  /-- daily samples by monitor and unit, oldest first: day, sample -/
  samples : List ((Nat × Nat) × List (Nat × Nat)) := []
  /-- readings of the day by cluster, the first reading of a cluster -/
  ro : List (Nat × List Nat) := []
  roBase : List (Nat × Nat) := []
  /-- CE counts at the last daily sample, by stack -/
  ce0 : List (Nat × Nat) := []
  /-- lowest eye margin of the day by lane -/
  eye : List (Nat × Nat) := []
  posted : List (Nat × Nat) := []
deriving DecidableEq, Repr

/-! ### The whole pier -/

/-- Faults that stop the model: none. Every fault the manual names is an effect on the state. -/
inductive Fault where
deriving DecidableEq, Repr

/-- Why a command has no meaning. -/
inductive Refusal where
  /-- raised by an arm of `exec` whose meaning is not written yet; safe -/
  | notModelled (mnemonic : String)
deriving DecidableEq, Repr

structure State where
  sys : Sys := {}
  fuses : Fuses := {}
  mem : List (Nat × Byte) := []
  ecc : List (Nat × Byte) := []
  localGib : Nat := 0
  ddrBytes : Nat := 0
  /-- channels over which the DDR5 tier is interleaved (R257) -/
  ddrSet : List Nat := []
  fp : FloorPlan := {}
  plan : PlanSt := {}
  job : JobSt := {}
  gate : GateSt := {}
  falsework : FalseSt := {}
  streams : List (SRef × StreamSt) := []
  arrays : List ((Nat × Arr) × ArraySt) := []
  trestle : List (Nat × TrestleSt) := []
  layers : List ((Nat × Nat) × LayerRes) := []
  ctr : List ((Bank × Nat) × Nat) := []
  pages : PageSt := {}
  kernels : List (SRef × KernelSt) := []
  routes : List (Nat × RouteNote) := []
  net : NetSt := {}
  coll : CollSt := {}
  host : HostSt := {}
  fw : FwSt := {}
  trace : TraceSt := {}
  age : AgeSt := {}
  clamps : List (Nat × ClampRec) := []
  debugMode : Bool := false
  pierId : Nat := 0xFFF
  aclk : Nat := 0
  freeCtr : Nat := 0
  pending : List Instr := []
deriving DecidableEq, Repr

/-- The pier held in full reset: power good, RESET_N low, everything the reset table loses at its initial value (R385,
R393). -/
def State.reset : State := {}

end Sys2Proof.Machine
end

