-- ==== Sys2Proof/Machine/Parts.lean ====
section
/-! DEFINITION. The parts of the pier, and the parts that each command can change itself: everything else a command leaves
as it was. -/

namespace Sys2Proof

namespace Machine

/-- Parts of the state: memory with its check bits, the share of HBM placed stack by stack, the DDR5 tier's size and
channels, and otherwise one field each. -/
inductive Part where
  | sys | fuses | mem | place | tier | fp | plan | job | gate | falsework | streams | arrays | trestle | layers | ctr
  | pages | kernels | routes | net | coll | host | fw | trace | age | clamps | debug | pier | clock | free | queue
deriving DecidableEq, Repr

/-- The part is the same in both states. -/
def Part.same (s t : State) : Part → Prop
  | .sys => t.sys = s.sys
  | .fuses => t.fuses = s.fuses
  | .mem => t.mem = s.mem ∧ t.ecc = s.ecc
  | .place => t.localGib = s.localGib
  | .tier => t.ddrBytes = s.ddrBytes ∧ t.ddrSet = s.ddrSet
  | .fp => t.fp = s.fp
  | .plan => t.plan = s.plan
  | .job => t.job = s.job
  | .gate => t.gate = s.gate
  | .falsework => t.falsework = s.falsework
  | .streams => t.streams = s.streams
  | .arrays => t.arrays = s.arrays
  | .trestle => t.trestle = s.trestle
  | .layers => t.layers = s.layers
  | .ctr => t.ctr = s.ctr
  | .pages => t.pages = s.pages
  | .kernels => t.kernels = s.kernels
  | .routes => t.routes = s.routes
  | .net => t.net = s.net
  | .coll => t.coll = s.coll
  | .host => t.host = s.host
  | .fw => t.fw = s.fw
  | .trace => t.trace = s.trace
  | .age => t.age = s.age
  | .clamps => t.clamps = s.clamps
  | .debug => t.debugMode = s.debugMode
  | .pier => t.pierId = s.pierId
  | .clock => t.aclk = s.aclk
  | .free => t.freeCtr = s.freeCtr
  | .queue => t.pending = s.pending

/-- Nothing but the parts named differs. -/
def Only (ps : List Part) (s t : State) : Prop := ∀ p, p ∉ ps → p.same s t

/-- A state with the parts named taken from another. -/
def State.take (s t : State) (ps : List Part) : State :=
  {
    sys := if .sys ∈ ps then t.sys else s.sys
    fuses := if .fuses ∈ ps then t.fuses else s.fuses
    mem := if .mem ∈ ps then t.mem else s.mem
    ecc := if .mem ∈ ps then t.ecc else s.ecc
    localGib := if .place ∈ ps then t.localGib else s.localGib
    ddrBytes := if .tier ∈ ps then t.ddrBytes else s.ddrBytes
    ddrSet := if .tier ∈ ps then t.ddrSet else s.ddrSet
    fp := if .fp ∈ ps then t.fp else s.fp
    plan := if .plan ∈ ps then t.plan else s.plan
    job := if .job ∈ ps then t.job else s.job
    gate := if .gate ∈ ps then t.gate else s.gate
    falsework := if .falsework ∈ ps then t.falsework else s.falsework
    streams := if .streams ∈ ps then t.streams else s.streams
    arrays := if .arrays ∈ ps then t.arrays else s.arrays
    trestle := if .trestle ∈ ps then t.trestle else s.trestle
    layers := if .layers ∈ ps then t.layers else s.layers
    ctr := if .ctr ∈ ps then t.ctr else s.ctr
    pages := if .pages ∈ ps then t.pages else s.pages
    kernels := if .kernels ∈ ps then t.kernels else s.kernels
    routes := if .routes ∈ ps then t.routes else s.routes
    net := if .net ∈ ps then t.net else s.net
    coll := if .coll ∈ ps then t.coll else s.coll
    host := if .host ∈ ps then t.host else s.host
    fw := if .fw ∈ ps then t.fw else s.fw
    trace := if .trace ∈ ps then t.trace else s.trace
    age := if .age ∈ ps then t.age else s.age
    clamps := if .clamps ∈ ps then t.clamps else s.clamps
    debugMode := if .debug ∈ ps then t.debugMode else s.debugMode
    pierId := if .pier ∈ ps then t.pierId else s.pierId
    aclk := if .clock ∈ ps then t.aclk else s.aclk
    freeCtr := if .free ∈ ps then t.freeCtr else s.freeCtr
    pending := if .queue ∈ ps then t.pending else s.pending
  }

end Machine

open Machine in
/-- The parts a command can change itself, before what follows from its changes. A host command may change the log, its
reply, the clamp store and, where it refuses or fails, counters; reading memory corrects and counts. -/
def Instr.writes : Instr → List Part
  | .hello .. | .regionOpen .. | .ringSetup .. | .qpConnect .. =>
    [.mem, .gate, .ctr, .host, .trace, .clamps, .free]
  | .openSession .. =>
    [.sys, .fuses, .mem, .gate, .ctr, .host, .trace, .clamps, .free]
  | .close .. | .keepalive .. | .netConfig .. | .regionClose .. | .wearlogRead .. | .syncSignal .. | .syncWait ..
  | .floorplanRead .. | .counterRead .. | .clampRead .. | .statusQuery .. | .poisonRead .. | .snapshotTake .. | .snapshotRead ..
  | .snapshotRelease .. | .snapshotTraceRead .. | .traceCtlSample .. | .traceCtlTrace .. | .traceCtlTrigger .. | .traceCtlStop ..
  | .traceCtlStatus .. | .sqTailWrite .. | .rdmaWrite .. =>
    [.mem, .gate, .ctr, .host, .trace, .clamps]
  | .sessionIdleTimeout | .syncWaitTimeout .. | .rdmaRead .. =>
    [.mem, .gate, .ctr, .host, .trace]
  | .rollCall .. | .jobAssign .. | .spanCreate .. | .spanDelete .. | .drainDetach .. | .matmul .. | .attnFwd .. | .attnBwd ..
  | .rmsnorm .. | .rmsnormBwd .. | .layernorm .. | .layernormBwd .. | .softmax .. | .softmaxBwd .. | .xent .. | .opRoute ..
  | .opCombine .. | .opCombineBwd .. | .opRouteBwd .. | .embed .. | .embedBwd .. | .convert .. | .init .. | .collective ..
  | .update .. | .copyRefresh .. | .fwWrite .. | .fwRestore .. | .reshard .. =>
    [.mem, .job, .gate, .ctr, .net, .host, .trace, .clamps, .free]
  | .fwLoadBegin .. | .fwLoadData .. | .fwReplacePeriodsOnly .. =>
    [.mem, .gate, .ctr, .host, .fw, .trace, .clamps]
  | .fwLoadCommit .. =>
    [.sys, .fuses, .mem, .fp, .gate, .ctr, .host, .fw, .trace, .clamps]
  | .fwReplace .. =>
    [.fuses, .mem, .gate, .ctr, .host, .fw, .trace, .clamps]
  | .fwReplaceProbationEnd =>
    [.mem, .gate, .ctr, .host, .fw, .trace]
  | .wearlogHandBack .. =>
    [.mem, .gate, .ctr, .host, .fw, .trace, .age, .clamps]
  | .planLoad .. =>
    [.mem, .place, .plan, .gate, .falsework, .ctr, .host, .trace, .clamps]
  | .planUpdate .. =>
    [.mem, .place, .plan, .gate, .ctr, .host, .trace, .clamps]
  | .planUnload .. =>
    [.mem, .plan, .gate, .falsework, .ctr, .host, .trace, .clamps]
  | .descWrite .. =>
    [.mem, .place, .gate, .ctr, .host, .trace, .clamps]
  | .jobStart .. =>
    [.mem, .plan, .job, .gate, .falsework, .streams, .trestle, .layers, .ctr, .kernels, .net, .coll, .host, .trace,
     .clamps, .free]
  | .jobStartTimeout =>
    [.mem, .job, .gate, .ctr, .net, .host, .trace, .free]
  | .slotWrite .. | .lease .. | .clear .. =>
    [.mem, .gate, .ctr, .pages, .host, .trace, .clamps]
  | .pagePartWrite .. | .pagePartRead .. | .spillLands .. | .fetchLands .. =>
    [.mem, .job, .gate, .ctr, .pages, .net, .host, .trace, .clamps, .free]
  | .abort .. =>
    [.mem, .job, .gate, .falsework, .streams, .ctr, .net, .coll, .host, .fw, .trace, .clamps, .free]
  | .retireUnit .. =>
    [.mem, .fp, .plan, .job, .gate, .falsework, .streams, .ctr, .kernels, .net, .coll, .host, .fw, .trace, .clamps, .free]
  | .debugMode .. =>
    [.mem, .gate, .ctr, .host, .trace, .clamps, .debug]
  | .reshardStageBarrier =>
    [.mem, .job, .gate, .falsework, .ctr, .net, .trace, .free]
  | .reshardInstallBarrier =>
    [.mem, .place, .plan, .job, .gate, .falsework, .streams, .ctr, .net, .host, .trace, .clamps, .free]
  | .ringEntry | .memoryTestDone .. | .computeResetNRise .. =>
    [.sys, .fuses, .mem, .place, .fp, .plan, .job, .gate, .falsework, .streams, .trestle, .layers, .ctr, .pages,
     .kernels, .net, .coll, .host, .fw, .trace, .age, .clamps, .debug, .free]
  | .rdmaInvalidRequest .. | .cnpReceived .. | .rateRestore .. | .icmpEcho .. | .neighbourDiscovery .. | .dhcpReply ..
  | .ethTrainingTurn .. | .ethPortDown .. | .ethLinkUp .. =>
    [.host]
  | .ethUnsupported .. =>
    [.ctr, .trace]
  | .pwrEnRise | .resetNRise .. | .vinWithinOperatingRange =>
    [.sys]
  | .pwrEnFall | .vinUndervoltage | .resetNFall | .thermalTrip =>
    [.sys, .mem, .place, .tier, .fp, .plan, .job, .gate, .falsework, .streams, .arrays, .trestle, .layers, .ctr,
     .pages, .kernels, .routes, .net, .coll, .host, .fw, .trace, .age, .clamps, .debug, .pier, .clock]
  | .vinDip =>
    []
  | .startUpTestDone .. =>
    [.sys, .fp, .net, .fw]
  | .memoryTrainingDone .. =>
    [.sys, .mem, .tier, .fp, .gate, .ctr, .host, .fw, .trace]
  | .computeResetNFall =>
    [.sys, .mem, .fp, .job, .gate, .streams, .arrays, .trestle, .layers, .ctr, .pages, .kernels, .net, .coll, .trace, .free]
  | .rejoinTimeout .. | .voteTimeout =>
    [.mem, .plan, .job, .gate, .falsework, .streams, .ctr, .kernels, .net, .coll, .host, .trace, .free]
  | .rootPllLossOfLock .. =>
    [.sys, .net]
  | .powerSample .. | .junctionSample .. =>
    [.sys, .ctr, .trace]
  | .laneLockLoss .. | .symbolRateCheck .. =>
    [.mem, .fp, .job, .gate, .ctr, .net, .host, .fw, .trace, .free]
  | .eyeMarginCheck .. =>
    [.mem, .fp, .job, .gate, .ctr, .net, .host, .fw, .trace, .age, .free]
  | .portTrainingRetry .. | .retryReqRepeat .. | .ackTimer .. =>
    [.net]
  | .flitIdent .. | .flitIdle .. | .flitWrite .. | .flitReadReq .. | .flitSignal .. | .flitColl .. | .flitCtrl ..
  | .flitRetryReq .. =>
    [.mem, .fp, .plan, .job, .gate, .falsework, .streams, .arrays, .trestle, .layers, .ctr, .pages, .kernels, .routes, .net,
     .coll, .host, .fw, .trace, .clamps, .free]
  | .retryExhausted .. =>
    [.mem, .fp, .job, .gate, .ctr, .net, .host, .trace, .free]
  | .quietIntervalExpiry =>
    [.mem, .job, .gate, .ctr, .net, .host, .trace, .pier]
  | .stepBegin .. | .ucopy .. =>
    [.mem, .job, .gate, .streams, .ctr, .trace]
  | .tprod .. | .tbprod .. =>
    [.gate, .streams, .arrays, .ctr, .host, .trace, .clamps]
  | .lend .. =>
    [.gate, .streams, .arrays, .ctr, .trace]
  | .accumulationComplete .. =>
    [.mem, .gate, .streams, .arrays, .ctr, .trace]
  | .drainStart .. =>
    [.mem, .job, .gate, .arrays, .ctr, .trace, .free]
  | .drainComplete .. =>
    [.streams, .arrays, .ctr, .host, .trace, .clamps]
  | .vrun .. =>
    [.mem, .job, .gate, .streams, .ctr, .trace, .free]
  | .attentionKernel .. =>
    [.mem, .job, .gate, .streams, .ctr, .pages, .kernels, .host, .trace, .clamps]
  | .route .. =>
    [.mem, .job, .gate, .streams, .ctr, .routes, .host, .trace, .clamps]
  | .combine .. | .combineBwd .. | .routeBwd .. | .qamax .. | .qchamax .. | .qconv .. =>
    [.mem, .job, .gate, .streams, .ctr, .host, .trace, .clamps]
  | .mcopy .. =>
    [.mem, .job, .gate, .streams, .ctr, .pages, .net, .host, .trace, .clamps, .free]
  | .mfill .. | .sspan .. | .loopm .. =>
    [.mem, .job, .gate, .streams, .ctr, .net, .host, .trace, .clamps, .free]
  | .mbankread .. =>
    [.mem, .gate, .streams, .ctr, .host, .trace, .clamps, .free]
  | .swait .. | .sadd .. | .loop .. | .endloop .. | .fence .. | .gate .. | .end_ .. | .bridx .. | .mark ..
  | .instructionCompletion .. =>
    [.mem, .job, .gate, .streams, .ctr, .net, .trace, .free]
  | .sset .. =>
    [.mem, .gate, .streams, .ctr, .trace]
  | .up1 .. =>
    [.mem, .job, .gate, .streams, .layers, .ctr, .trace]
  | .up2 .. | .generationLocalWritten =>
    [.mem, .job, .gate, .falsework, .streams, .ctr, .kernels, .net, .coll, .host, .trace, .free]
  | .trestleJob .. =>
    [.mem, .tier, .fp, .job, .gate, .trestle, .ctr, .net, .trace, .free]
  | .collectiveEntryStart =>
    [.mem, .job, .gate, .ctr, .net, .coll, .host, .trace, .clamps, .free]
  | .expertRowsLanded .. =>
    [.mem, .gate, .ctr, .coll, .trace]
  | .collectiveComplete .. =>
    [.mem, .job, .gate, .ctr, .net, .coll, .trace, .free]
  | .hangIntervalExpiry .. =>
    [.mem, .job, .gate, .ctr, .trace]
  | .vote =>
    [.mem, .job, .gate, .ctr, .net, .trace, .free]
  | .gateDecide =>
    [.job, .gate, .ctr, .net, .trace, .free]
  | .gateResult =>
    [.mem, .place, .fp, .plan, .job, .gate, .falsework, .streams, .arrays, .trestle, .layers, .ctr, .pages, .kernels,
     .net, .coll, .host, .fw, .trace, .clamps, .free]
  | .copiesVerified =>
    [.mem, .plan, .job, .gate, .falsework, .streams, .arrays, .trestle, .layers, .ctr, .pages, .kernels, .net, .coll,
     .host, .trace, .clamps, .free]
  | .buddyShardLands .. =>
    [.mem, .job, .gate, .falsework, .ctr, .net, .host, .trace, .free]
  | .fwHoldRelease .. =>
    [.mem, .gate, .falsework, .streams, .ctr, .trace]
  | .release .. =>
    [.ctr, .pages, .host, .trace, .clamps]
  | .patrolScrub .. | .sampleTick =>
    [.mem, .gate, .ctr, .trace]
  | .watchdogExpiry .. =>
    [.mem, .fp, .plan, .job, .gate, .falsework, .streams, .ctr, .kernels, .net, .coll, .host, .fw, .trace, .free]
  | .traceFrozen .. =>
    [.trace]
  | .roReading .. =>
    [.age]
  | .ageingDailySample =>
    [.mem, .fp, .plan, .job, .gate, .falsework, .streams, .ctr, .kernels, .net, .coll, .host, .fw, .trace, .age, .free]
  | .fEngineInServiceTest .. =>
    [.gate]

end Sys2Proof
end

