-- ==== Sys2Proof/Machine/Crypto.lean ====
section
/-! DEFINITION. The published algorithms the manual names: SHA-256 and HMAC-SHA-256, RSASSA-PSS and RSAES-OAEP over
MGF1-SHA-256, and CRC-32C (R274, R338, R339, R342, R358, R369). -/

namespace Sys2Proof.Machine

def u32 (n : Nat) : Nat := n % 2 ^ 32

/-- Right rotation of a 32-bit word. -/
def rotr (n x : Nat) : Nat := u32 ((x >>> n) ||| (x <<< (32 - n)))

/-- Round constants of SHA-256. -/
def shaK : List Nat := [
  0x428a2f98, 0x71374491, 0xb5c0fbcf, 0xe9b5dba5, 0x3956c25b, 0x59f111f1, 0x923f82a4, 0xab1c5ed5,
  0xd807aa98, 0x12835b01, 0x243185be, 0x550c7dc3, 0x72be5d74, 0x80deb1fe, 0x9bdc06a7, 0xc19bf174,
  0xe49b69c1, 0xefbe4786, 0x0fc19dc6, 0x240ca1cc, 0x2de92c6f, 0x4a7484aa, 0x5cb0a9dc, 0x76f988da,
  0x983e5152, 0xa831c66d, 0xb00327c8, 0xbf597fc7, 0xc6e00bf3, 0xd5a79147, 0x06ca6351, 0x14292967,
  0x27b70a85, 0x2e1b2138, 0x4d2c6dfc, 0x53380d13, 0x650a7354, 0x766a0abb, 0x81c2c92e, 0x92722c85,
  0xa2bfe8a1, 0xa81a664b, 0xc24b8b70, 0xc76c51a3, 0xd192e819, 0xd6990624, 0xf40e3585, 0x106aa070,
  0x19a4c116, 0x1e376c08, 0x2748774c, 0x34b0bcb5, 0x391c0cb3, 0x4ed8aa4a, 0x5b9cca4f, 0x682e6ff3,
  0x748f82ee, 0x78a5636f, 0x84c87814, 0x8cc70208, 0x90befffa, 0xa4506ceb, 0xbef9a3f7, 0xc67178f2]

def shaH0 : List Nat := [0x6a09e667, 0xbb67ae85, 0x3c6ef372, 0xa54ff53a, 0x510e527f, 0x9b05688c, 0x1f83d9ab, 0x5be0cd19]

/-- Message schedule: the window of sixteen words slides once a round. -/
def shaNext (w : List Nat) : Nat :=
  let w1 := w.getD 1 0
  let w14 := w.getD 14 0
  let s0 := rotr 7 w1 ^^^ rotr 18 w1 ^^^ (w1 >>> 3)
  let s1 := rotr 17 w14 ^^^ rotr 19 w14 ^^^ (w14 >>> 10)
  u32 (w.getD 0 0 + s0 + w.getD 9 0 + s1)

/-- The rounds over the working words a to h. -/
def shaRounds : List Nat → List Nat → List Nat → List Nat
  | [], _, v => v
  | k :: ks, w, v =>
    let a := v.getD 0 0
    let b := v.getD 1 0
    let c := v.getD 2 0
    let e := v.getD 4 0
    let f := v.getD 5 0
    let g := v.getD 6 0
    let s1 := rotr 6 e ^^^ rotr 11 e ^^^ rotr 25 e
    let ch := (e &&& f) ^^^ ((2 ^ 32 - 1 - e) &&& g)
    let t1 := u32 (v.getD 7 0 + s1 + ch + k + w.getD 0 0)
    let s0 := rotr 2 a ^^^ rotr 13 a ^^^ rotr 22 a
    let mj := (a &&& b) ^^^ (a &&& c) ^^^ (b &&& c)
    shaRounds ks (w.drop 1 ++ [shaNext w]) [u32 (t1 + s0 + mj), a, b, c, u32 (v.getD 3 0 + t1), e, f, g]

/-- Big-endian words of `k` groups of four bytes. -/
def beWords : Nat → List Byte → List Nat
  | 0, _ => []
  | k + 1, bs => beNat (bs.take 4) :: beWords k (bs.drop 4)

def shaBlock (h : List Nat) (b : List Byte) : List Nat :=
  (List.zipWith (fun x y => u32 (x + y)) h (shaRounds shaK (beWords 16 b) h))

def shaBlocks : Nat → List Nat → List Byte → List Nat
  | 0, h, _ => h
  | k + 1, h, bs => shaBlocks k (shaBlock h (bs.take 64)) (bs.drop 64)

/-- SHA-256 of a byte string, 32 bytes. -/
def sha256 (m : List Byte) : List Byte :=
  let n := m.length
  let z := (119 - n % 64) % 64
  let p := m ++ [0x80#8] ++ List.replicate z 0#8 ++ natBE 8 (8 * n)
  (shaBlocks ((n + 9 + z) / 64) shaH0 p).flatMap (natBE 4)

/-- HMAC-SHA-256. -/
def hmac (key m : List Byte) : List Byte :=
  let k0 := if key.length > 64 then sha256 key else key
  let k := k0 ++ List.replicate (64 - k0.length) 0#8
  sha256 (k.map (· ^^^ 0x5C#8) ++ sha256 (k.map (· ^^^ 0x36#8) ++ m))

/-- MGF1 over SHA-256: `len` bytes. -/
def mgf1 (seed : List Byte) (len : Nat) : List Byte :=
  ((List.range (cdiv len 32)).flatMap fun i => sha256 (seed ++ natBE 4 i)).take len

/-- b^e mod n by repeated squaring over `k` bits of e. -/
def modPow (n : Nat) : Nat → Nat → Nat → Nat
  | 0, _, _ => 1 % n
  | k + 1, b, e =>
    let h := modPow n k (b * b % n) (e / 2)
    if e % 2 == 1 then h * b % n else h

def xorBytes (a b : List Byte) : List Byte := List.zipWith (· ^^^ ·) a b

/-- RSASSA-PSS verification of a message with SHA-256, MGF1-SHA-256 and a 32-byte salt, for a modulus whose
length is a whole number of bytes (RFC 8017 9.1.2). -/
def pssVerify (n e : Nat) (msg sig : List Byte) : Bool :=
  let k := cdiv (n.log2 + 1) 8
  let s := beNat sig
  if sig.length != k || s ≥ n then false
  else
    let emBits := n.log2
    let emLen := cdiv emBits 8
    let em := natBE emLen (modPow n 32 s e)
    if em.getLastD 0 != 0xBC#8 then false
    else
      let mdb := em.take (emLen - 33)
      let h := (em.drop (emLen - 33)).take 32
      let db0 := xorBytes mdb (mgf1 h (emLen - 33))
      let unused := 8 * emLen - emBits
      if (mdb.headD 0).toNat ≥ 2 ^ (8 - unused) then false
      else
        let db := match db0 with | [] => [] | b :: bs => BitVec.ofNat 8 (b.toNat % 2 ^ (8 - unused)) :: bs
        let pad := db.take (emLen - 66)
        if pad.any (· != 0#8) || (db.drop (emLen - 66)).headD 0 != 1#8 then false
        else
          let salt := db.drop (emLen - 65)
          sha256 (List.replicate 8 0#8 ++ sha256 msg ++ salt) == h

/-- RSAES-OAEP encryption with an empty label, SHA-256 and the 32-byte seed given (RFC 8017 7.1.1). -/
def oaepEncrypt (n e : Nat) (seed msg : List Byte) : List Byte :=
  let k := cdiv (n.log2 + 1) 8
  let db := sha256 [] ++ List.replicate (k - msg.length - 66) 0#8 ++ [1#8] ++ msg
  let mdb := xorBytes db (mgf1 seed (k - 33))
  let ms := xorBytes seed (mgf1 mdb 32)
  natBE k (modPow n 32 (beNat (0#8 :: ms ++ mdb)) e)

/-- One byte into a CRC-32C register, least significant bit first. -/
def crcByte : Nat → Nat → Nat
  | 0, c => c
  | k + 1, c => crcByte k (if c % 2 == 1 then (c / 2) ^^^ 0x82F63B78 else c / 2)

/-- CRC-32C of a byte string (initial value and final complement all ones). -/
def crc32c (bs : List Byte) : Nat :=
  (bs.foldl (fun c b => crcByte 8 (c ^^^ b.toNat)) 0xFFFFFFFF) ^^^ 0xFFFFFFFF

end Sys2Proof.Machine
end

