-- ==== Sys2Proof/Machine/Mem.lean ====
section
/-! DEFINITION. Memory: the canonical list of bytes, the placement of R253, stored units with check bits and poison
(R261 to R265), and the local address map (R30, R33, R270). -/

namespace Sys2Proof.Machine

/-! ### The canonical byte list -/

/-- What an address no entry lists reads as (R390 for HBM and the DDR5 tier; DESIGN CHOICE for the other memories). -/
def Memory.unlisted : Byte := 0#8

/-- The byte at a key. -/
def mget : List (Nat × Byte) → Nat → Byte
  | [], _ => Memory.unlisted
  | (a, b) :: r, k => if a = k then b else mget r k

/-- An entry put before the first of a greater key. -/
def minsert : List (Nat × Byte) → Nat → Byte → List (Nat × Byte)
  | [], k, v => [(k, v)]
  | (a, b) :: r, k, v => if k < a then (k, v) :: (a, b) :: r else (a, b) :: minsert r k v

/-- The list with the byte at a key set: no entry where the key would read so unlisted. -/
def mput (m : List (Nat × Byte)) (k : Nat) (v : Byte) : List (Nat × Byte) :=
  let r := m.filter fun c => c.1 != k
  if v = Memory.unlisted then r else minsert r k v

/-- Addresses strictly rising from `lo`, and no entry equal to what an unlisted address reads as. -/
def Memory.wfFrom : Nat → List (Nat × Byte) → Bool
  | _, [] => true
  | lo, (a, b) :: r => decide (lo ≤ a) && decide (b ≠ Memory.unlisted) && Memory.wfFrom (a + 1) r

/-- The canonical form of a memory. -/
def Memory.wf (m : List (Nat × Byte)) : Bool := Memory.wfFrom 0 m

/-! ### Placement of HBM (R253) -/

abbrev GiB : Nat := 0x40000000
abbrev STACK : Nat := 48 * GiB
abbrev HBM_END : Nat := 12 * STACK
abbrev RESERVE : Nat := 0x8FD0000000

/-- Stack and stack offset of an HBM address under L, which is at most 47 (R253, R254). -/
def hbmPlace (l a : Nat) : Nat × Nat :=
  let L := min l 47
  if a < 12 * L * GiB then (a / (L * GiB), a % (L * GiB))
  else
    let b := a - 12 * L * GiB
    let q := b / 4096
    (q % 12, L * GiB + q / 12 * 4096 + a % 4096)

/-- The HBM address of a stack and stack offset under L. -/
def hbmAddr (l stack off : Nat) : Nat :=
  let L := min l 47
  if off < L * GiB then stack * (L * GiB) + off
  else 12 * L * GiB + ((off - L * GiB) / 4096 * 12 + stack) * 4096 + off % 4096

/-- Key of a local address in the byte list: HBM by stack and stack offset, the rest by address. -/
def keyOf (L a : Nat) : Nat :=
  if a < HBM_END then let p := hbmPlace L a; p.1 * STACK + p.2 else a

/-- The local address of a key. -/
def addrOf (L k : Nat) : Nat := if k < HBM_END then hbmAddr L (k / STACK) (k % STACK) else k

/-! ### Stored units (R261 to R263) -/

/-- The column of data bit j: the 32 smallest seven-bit values with three bits set, in order (R262). -/
def eccColumns : List Nat := ((List.range 128).filter fun n => popcount 7 n == 3).take 32

/-- What a read finds (R263). -/
inductive Syndrome where
  | clean | checkBit | dataBit (j : Nat) | uncorrected
deriving DecidableEq, Repr

/-- The syndrome of an entry of `ecc`, whose low seven bits are the stored check bits XOR the recomputed ones and
whose bit 7 is P. -/
def syndromeOf (e : Byte) : Syndrome :=
  let y := (e.toNat % 128) ^^^ (if e.toNat ≥ 128 then 127 else 0)
  if y == 0 then .clean
  else if popcount 7 y == 1 then .checkBit
  else match eccColumns.findIdx? (· == y) with | some j => .dataBit j | none => .uncorrected

def poisonBit (e : Byte) : Bool := e.toNat ≥ 128

/-- Entry of a clean unit with P = 1. -/
def eccPoison : Byte := 0xFF#8

/-- The four bytes of the word at a key, little-endian. -/
def rawWord (m : List (Nat × Byte)) (k : Nat) : Nat :=
  (mget m k).toNat + 256 * (mget m (k + 1)).toNat + 65536 * (mget m (k + 2)).toNat + 16777216 * (mget m (k + 3)).toNat

/-- The word a read delivers, with its poison (R263). -/
def deliver (m ecc : List (Nat × Byte)) (k : Nat) : Word × Bool :=
  let e := mget ecc k
  let w := rawWord m k
  match syndromeOf e with
  | .clean | .checkBit => (BitVec.ofNat 32 w, poisonBit e)
  | .dataBit j => (BitVec.ofNat 32 (w ^^^ 2 ^ j), poisonBit e)
  | .uncorrected => (BitVec.ofNat 32 w, true)

/-- A word's four bytes put at a key. -/
def putWord (m : List (Nat × Byte)) (k : Nat) (w : Nat) : List (Nat × Byte) :=
  mput (mput (mput (mput m k (BitVec.ofNat 8 w)) (k + 1) (BitVec.ofNat 8 (w / 256))) (k + 2) (BitVec.ofNat 8 (w / 65536)))
    (k + 3) (BitVec.ofNat 8 (w / 16777216))

/-! ### The local address map (R30, R270) -/

abbrev DDR_BASE : Nat := 0x010000000000
abbrev CLUSTER_BASE : Nat := 0x040000000000
abbrev CORE_BASE : Nat := 0x050000000000
abbrev DESC_BASE : Nat := 0x080000000000
abbrev SPAN_TABLE : Nat := 0x080001000000
abbrev SYNC_BASE : Nat := 0x080002000000
abbrev CTX_BASE : Nat := 0x080002100000
abbrev UCTX_BASE : Nat := 0x080002120000
abbrev TRESTLE_CTX : Nat := 0x080002130000
abbrev TRESTLE_JOBS : Nat := 0x080002140000
abbrev REDUCED_DIR : Nat := 0x080002300000
abbrev SLOT_DESC : Nat := 0x080003000000
abbrev PAGE_DECL : Nat := 0x080003004000
abbrev PAGE_POOL : Nat := 0x080004000000
abbrev COEFF : Nat := 0x080005000000
abbrev SCHED : Nat := 0x080005040000
abbrev GROUP_CTR : Nat := 0x080005080000
abbrev CAMBER_CTL : Nat := 0x080005090000
abbrev GATE_REC : Nat := 0x080005090040
abbrev MEM_DECL : Nat := 0x080006000000
abbrev RING_AREA : Nat := 0x080007000000
abbrev PLAN_AREA : Nat := 0x080008000000
abbrev PLAN_AREA_END : Nat := 0x080010000000
abbrev PAGE_WINDOW : Nat := 0x080080000000
abbrev DESC_END : Nat := 0x080100000000

/-- Backed ranges of descriptor space: first address and first address past it (R270). -/
def descRanges : List (Nat × Nat) := [
  (SPAN_TABLE, 0x080001040000), (SYNC_BASE, 0x080002100000), (CTX_BASE, 0x080002120180),
  (TRESTLE_CTX, 0x080002130800), (TRESTLE_JOBS, 0x080002240000), (REDUCED_DIR, 0x080002300800),
  (SLOT_DESC, 0x080003004000), (PAGE_DECL, 0x080003004020), (PAGE_POOL, 0x080005000000),
  (COEFF, 0x080005090080), (MEM_DECL, 0x080006000040), (RING_AREA, 0x080007001000), (0x080007010000, 0x080007150000), (PLAN_AREA, PLAN_AREA_END)]

def inRanges (rs : List (Nat × Nat)) (a : Nat) : Bool := rs.any fun r => r.1 ≤ a && a < r.2

def isHbm (a : Nat) : Bool := a < HBM_END
def isReserve (a : Nat) : Bool := RESERVE ≤ a && a < HBM_END
def isDdr (a : Nat) : Bool := DDR_BASE ≤ a && a < 0x030000000000
def isDesc (a : Nat) : Bool := DESC_BASE ≤ a && a < DESC_END
def isPageWindow (a : Nat) : Bool := PAGE_WINDOW ≤ a && a < DESC_END

/-- Core window of a core slot and its populated part (R30). -/
def coreBase (k : Nat) : Nat := CORE_BASE + k * 0x100000
def clusterBase (s : Nat) : Nat := CLUSTER_BASE + s * 0x1000000
def inCore (k a : Nat) : Bool := coreBase k ≤ a && a < coreBase k + 0x80000
def inCluster (s a : Nat) : Bool := clusterBase s ≤ a && a < clusterBase s + 0x800000
def coreSlotOf (a : Nat) : Nat := (a - CORE_BASE) / 0x100000
def clusterSlotOf (a : Nat) : Nat := (a - CLUSTER_BASE) / 0x1000000

namespace State

/-- Debug mode: the plan was loaded with debug = 1, or DEBUG_MODE entered it (R435). -/
def inDebug (s : State) : Bool := s.plan.debug || s.debugMode

def coreServed (s : State) (k : Nat) : Bool := s.fp.coreBind.any (·.1 == k)
def clusterServed (s : State) (c : Nat) : Bool := s.fp.clusterBind.any (·.1 == c)

/-- Whether a local address has memory behind it (R30, R33, R270). -/
def mapped (s : State) (a : Nat) : Bool :=
  if a < HBM_END then true
  else if a < CLUSTER_BASE then DDR_BASE ≤ a && a < DDR_BASE + s.ddrBytes
  else if a < CORE_BASE then a < CLUSTER_BASE + 64 * 0x1000000 && a % 0x1000000 < 0x800000 && s.clusterServed (clusterSlotOf a)
  else if a < DESC_BASE then a < CORE_BASE + 2048 * 0x100000 && a % 0x100000 < 0x80000 && s.coreServed (coreSlotOf a)
  else inRanges descRanges a

/-- The word a read delivers at an aligned local address. -/
def word (s : State) (a : Nat) : Word × Bool := deliver s.mem s.ecc (keyOf s.localGib a)

/-- One byte as a read delivers it, with the poison of its word. A hole reads as zero without poison (R33). -/
def byte (s : State) (a : Nat) : Byte × Bool :=
  if s.mapped a then
    let w := s.word (a / 4 * 4)
    (BitVec.ofNat 8 (w.1.toNat / 256 ^ (a % 4)), w.2)
  else (0#8, false)

/-- Bytes from a local address. -/
def bytes (s : State) (a : Nat) : Nat → List (Byte × Bool)
  | 0 => []
  | n + 1 => s.byte a :: bytes s (a + 1) n

/-- Bytes as data alone. -/
def data (s : State) (a n : Nat) : List Byte := (s.bytes a n).map (·.1)

/-- A little-endian field of `n` bytes (R4). -/
def nat (s : State) (a n : Nat) : Nat := leNat (s.data a n)

/-- Whether any word of a range is poisoned. -/
def poisoned (s : State) (a n : Nat) : Bool := (s.bytes a n).any (·.2)

/-- An FP32 word at a 4-byte aligned address. -/
def f32At (s : State) (a : Nat) : F32 × Bool := if s.mapped a then s.word (a / 4 * 4) else (0#32, false)

/-! ### Counters -/

/-- A counter of 32 bits that holds (R57). -/
def counter (s : State) (b : Bank) (i : Nat) : Nat := aget s.ctr (b, i) 0

/-- An event counted; while sampling runs, the sample counters that select it count it too (R426, R427). -/
def bump (s : State) (b : Bank) (i : Nat) (n : Nat := 1) : State :=
  if n = 0 then s
  else
    { s with
      ctr := aset s.ctr (b, i) (hold32 (s.counter b i + n))
      trace := if s.trace.sampling then { s.trace with counts := aset s.trace.counts (b, i) (aget s.trace.counts (b, i) 0 + n) } else s.trace }

def bumps (s : State) (b : Bank) (is : List Nat) : State := is.foldl (fun s i => s.bump b i) s

/-- The bank of memory error counters an address belongs to, by physical unit (R268). -/
def memBank (s : State) (a : Nat) : Bank :=
  if a < HBM_END then .memHbm (hbmPlace s.localGib a).1
  else if isDdr a then .memDdr (s.ddrSet.getD ((a - DDR_BASE) / 4096 % max 1 s.ddrSet.length) 0)
  else if a < CORE_BASE then .memCluster (aget s.fp.clusterBind (clusterSlotOf a) 0)
  else if a < DESC_BASE then .memCore (aget s.fp.coreBind (coreSlotOf a) 0)
  else .memHbm (hbmPlace s.localGib (RESERVE + (a - DESC_BASE))).1

abbrev CE_READ : Nat := 0
abbrev CE_SCRUB : Nat := 1
abbrev UE_READ : Nat := 2
abbrev UE_SCRUB : Nat := 3
abbrev POISON_READ : Nat := 4
abbrev RMW_POISON : Nat := 5
abbrev SCRUB_PASSES : Nat := 6

/-! ### Writes -/

/-- A whole stored unit written at an aligned local address (R264). -/
def setWord (s : State) (a w : Nat) (p : Bool) : State :=
  let k := keyOf s.localGib a
  { s with
    mem := putWord s.mem k w
    ecc := mput s.ecc k (if p then eccPoison else 0#8)
    gate := if p && s.job.running && !s.gate.wrote.contains a then { s.gate with wrote := s.gate.wrote ++ [a] } else s.gate }

/-- Replacement of `n` bytes of a word from byte `off`. -/
def mergeBytes (old off : Nat) (bs : List Byte) : Nat :=
  old % 256 ^ off + leNat bs * 256 ^ off + old / 256 ^ (off + bs.length) * 256 ^ (off + bs.length)

/-- A write within one word: a whole word replaces the unit, a part is merged, and a merge into an uncorrected or
poisoned unit is written poisoned and counted (R264). -/
def writePart (s : State) (a : Nat) (bs : List (Byte × Bool)) : State :=
  let w := a / 4 * 4
  if !s.mapped w then s
  else
    let p := bs.any (·.2)
    if bs.length == 4 then s.setWord w (leNat (bs.map (·.1))) p
    else
      let old := s.word w
      let s1 := if old.2 then s.bump (s.memBank w) RMW_POISON else s
      s1.setWord w (mergeBytes old.1.toNat (a % 4) (bs.map (·.1))) (p || old.2)

/-- Bytes written from a local address, word by word; `f` bounds the words. -/
def writeWords : Nat → State → Nat → List (Byte × Bool) → State
  | 0, s, _, _ => s
  | _ + 1, s, _, [] => s
  | f + 1, s, a, bs =>
    let k := 4 - a % 4
    writeWords f (s.writePart a (bs.take k)) (a + k) (bs.drop k)

/-- Bytes written from a local address; holes discard (R33). -/
def write (s : State) (a : Nat) (bs : List (Byte × Bool)) : State := writeWords (bs.length + 1) s a bs

/-- Clean bytes written. -/
def writeData (s : State) (a : Nat) (bs : List Byte) : State := s.write a (bs.map fun b => (b, false))

/-- A little-endian field of `n` bytes written clean. -/
def writeNat (s : State) (a n v : Nat) : State := s.writeData a (natLE n v)

/-- An FP32 word written. -/
def writeF32 (s : State) (a : Nat) (v : F32 × Bool) : State :=
  s.write a ((natLE 4 v.1.toNat).map fun b => (b, v.2))

/-! ### What reading does to the units read (R263) -/

/-- Unit kind and index of a bank of memory error counters, by the codes of the floor plan (R21). -/
def memUnit : Bank → Nat × Nat
  | .memCore p => (1, p)
  | .memCluster p => (3, p)
  | .memHbm p => (8, p)
  | .memDdr p => (12, p)
  | _ => (0, 0)

/-- An uncorrected unit noted for R269; one address counts once. -/
def noteRow (s : State) (b : Bank) (k : Nat) : State :=
  let u := memUnit b
  if s.gate.rows.any fun r => r.2.2.1 == k && r.1 == u.1 then s
  else { s with gate := { s.gate with rows := s.gate.rows ++ [(u.1, u.2, k, s.aclk)] } }

/-- The first poisoned word that the attempt reads and has not itself written (R402). -/
def notePoison (s : State) (a : Nat) : State :=
  if s.job.running && s.gate.firstRead.isNone && !s.gate.wrote.contains a then { s with gate := { s.gate with firstRead := some a } } else s

/-- The rewrite and the count one read unit takes. -/
def noteUnit (s : State) (ceCtr ueCtr : Nat) (k : Nat) (e : Byte) : State :=
  let a := addrOf s.localGib k
  let b := s.memBank a
  let ok : Byte := if poisonBit e then eccPoison else 0#8
  match syndromeOf e with
  | .clean => if poisonBit e && ceCtr == CE_READ then (s.bump b POISON_READ).notePoison a else s
  | .checkBit => { s with ecc := mput s.ecc k ok }.bump b ceCtr
  | .dataBit j => { s with mem := putWord s.mem k (rawWord s.mem k ^^^ 2 ^ j), ecc := mput s.ecc k ok }.bump b ceCtr
  | .uncorrected =>
    let t := ({ s with ecc := mput s.ecc k eccPoison }.bump b ueCtr).noteRow b k
    if ceCtr == CE_READ then t.notePoison a else t

/-- The units of the given ranges of local addresses (start, length) read by an agent. Units with clean check bits
and no poison are left as they are. -/
def noteReads (s : State) (rs : List (Nat × Nat)) : State :=
  s.ecc.foldl (fun t e =>
    let a := addrOf s.localGib e.1
    if rs.any fun r => r.1 < a + 4 && a < r.1 + r.2 then t.noteUnit CE_READ UE_READ e.1 e.2 else t) s

/-- The last unit of its memory, at which a patrol pass is complete. -/
def lastUnit (s : State) (k : Nat) : Bool :=
  if isHbm k then k % STACK == STACK - 4
  else if isDdr k then k % 4096 == 4092 && DDR_BASE + s.ddrBytes ≤ k + 4 + 4096 * (s.ddrSet.length - 1)
  else if k < CORE_BASE then k % 0x1000000 == 0x7FFFFC
  else k < DESC_BASE && k % 0x100000 == 0x7FFFC

/-- A unit read by the patrol scrubber of its memory: corrected units are rewritten, uncorrected ones poisoned, and no
gate changes (R266). The rewrite is within the step, so no store comes between (R267). -/
def scrub (s : State) (k : Nat) : State :=
  let a := addrOf s.localGib k
  if k % 4 != 0 || !s.mapped a then s
  else
    let t := s.noteUnit CE_SCRUB UE_SCRUB k (mget s.ecc k)
    if s.lastUnit k then t.bump (s.memBank a) SCRUB_PASSES else t

end State

end Sys2Proof.Machine
end

