-- ==== Sys2Proof/Machine/Product.lean ====
section
/-! DEFINITION. Tile and table products: operand loading with scales, masks and zero bitmaps (R41, R97 to R104),
the accumulation procedures (R92 to R96, R150 to R159), the side path (R75 to R78) and the pairing check (R72). -/

namespace Sys2Proof.Machine

/-! ### Masks (R98 to R101) -/

def maskTileAddr (o : OpDesc) (r c : Nat) : Nat := o.maskAddr + 8 * (r / 8 * cdiv o.inner 8 + c / 8)

/-- Bits of a mask tile kept by the repair of R101: cleared beyond the edge, then beyond the lowest four of each byte,
then beyond the four lowest-numbered bytes of each bit column. -/
def repairMask (rowsIn colsIn : Nat) (t : List Nat) : List Nat :=
  let step1 := t.mapIdx fun r b => if r < rowsIn then b % 2 ^ colsIn else 0
  let step2 := step1.map fun b =>
    (List.range 8).foldl (fun a c => if bitOf b c && popcount 8 a < 4 then a + 2 ^ c else a) 0
  (List.range 8).foldl (fun (acc : List Nat) r =>
    let b := step2.getD r 0
    acc ++ [(List.range 8).foldl (fun a c =>
      if bitOf b c && (acc.filter fun x => bitOf x c).length < 4 then a + 2 ^ c else a) 0]) []

/-- The eight bytes of the mask tile of element (r, c), as stored and as repaired, and its poison. -/
def State.maskTile (s : State) (o : OpDesc) (r c : Nat) : List Nat × List Nat × Bool :=
  let bs := s.bytes (maskTileAddr o r c) 8
  let st := bs.map (·.1.toNat)
  (st, repairMask (o.rows - r / 8 * 8) (min 8 (o.inner - c / 8 * 8)) st, bs.any (·.2))

/-- Whether the mask keeps element (r, c), its compressed slot in the group of 8, and the poison of the mask word. -/
def State.maskAt (s : State) (o : OpDesc) (r c : Nat) : Bool × Nat × Bool :=
  let t := s.maskTile o r c
  (bitOf (t.2.1.getD (r % 8) 0) (c % 8), popcount 8 (t.1.getD (r % 8) 0 % 2 ^ (c % 8)), t.2.2)

/-! ### Zero bitmaps (R103, R104) -/

/-- Whether the granule of stored element (r, c) is asserted zero; a poisoned bitmap word reads as all 0. -/
def State.granuleZero (s : State) (o : OpDesc) (r c : Nat) : Bool :=
  let g := r / 16 * cdiv o.inner 64 + c / 64
  let b := s.byte (o.zmapAddr + g / 8)
  !b.2 && bitOf b.1.toNat (g % 8)

/-! ### One operand element -/

/-- What an array's loader finds at one position of an operand. -/
structure OpElem where
  val : Ext := .zero
  /-- nothing there: outside the tensor, masked, or reading as zero (R93) -/
  absent : Bool := true
  scale : Ext := .one
  poison : Bool := false
  code : Nat := 0
  reserved : Bool := false
deriving DecidableEq, Repr

/-- Code of the element at packed index `i` of the row at `a`, with the poison of its words (R38). -/
def State.codeAt (s : State) (e : Elem) (a i : Nat) : Nat × Bool :=
  let g := e.group
  let bs := s.bytes (a + i / g.1 * g.2) g.2
  -- only the words holding the element's own bits carry its poison
  let lo := e.bits * (i % g.1)
  let mine := (bs.drop (lo / 8)).take ((lo + e.bits - 1) / 8 - lo / 8 + 1)
  ((leNat (bs.map (·.1)) >>> lo) % 2 ^ e.bits, mine.any (·.2))

/-- Scale byte of block `b` of stored row `r`, with its poison. -/
def State.scaleAt (s : State) (o : OpDesc) (r b : Nat) : Nat × Bool :=
  let x := s.byte (o.bscale + r * o.blocks + b)
  (x.1.toNat, x.2)

/-- Block and tensor scale together at (r, c), exact, with poison; the product in the order of R41. -/
def State.scaleOf (s : State) (o : OpDesc) (f : Fmt) (r c : Nat) : Ext × Bool :=
  match f.kind with
  | .none => (.one, false)
  | .e4m3t =>
    let b := s.scaleAt o r (c / f.block)
    let t := s.f32At o.tscale
    ((f.kind.value b.1).mul (tscaleValue t.1), b.2 || t.2)
  | _ => let b := s.scaleAt o r (c / f.block); (f.kind.value b.1, b.2)

/-- The element at stored row `r`, innermost index `c` (R36, R41, R93, R99). `zmap` says that the bitmap is honoured. -/
def State.elemAt (s : State) (o : OpDesc) (zmap : Bool) (r c : Int) : OpElem :=
  match o.fmt with
  | none => {}
  | some f =>
    if r < 0 || c < 0 || r ≥ o.rows || c ≥ o.inner then {}
    else
      let rn := r.toNat
      let cn := c.toNat
      if zmap && o.zmapEn && s.granuleZero o rn cn then {}
      else
        let m := if o.maskEn then s.maskAt o rn cn else (true, 0, false)
        let sc := s.scaleOf o f rn cn
        if !m.1 then { absent := true, scale := sc.1, poison := m.2.2 || sc.2 }
        else
          let i := if o.maskEn then cn / 8 * 4 + m.2.1 else cn
          let e := s.codeAt f.elem (o.base + rn * o.stride) i
          let v := f.elem.decode e.1
          { val := v, scale := sc.1, code := e.1, reserved := f.elem.reservedCode e.1,
            absent := (!sc.1.isNan && (v.isZero || sc.1.isZero)), poison := e.2 || m.2.2 || sc.2 }

/-- Element (out, k) of an operand: reduction along the innermost dimension, or along the rows when loaded
transposed (R87, R97). -/
def State.opElem (s : State) (o : OpDesc) (transposed zmap : Bool) (out k : Int) : OpElem :=
  if transposed then s.elemAt o zmap k out else s.elemAt o zmap out k

/-- A stored element's exact value for a reader that decodes it (R41), with its poison. -/
def State.valueAt (s : State) (o : OpDesc) (r c : Nat) : PV :=
  let e := s.elemAt o false r c
  if e.scale.isNan then (.nan, e.poison)
  else if o.maskEn && e.absent && e.code == 0 && e.val.isZero then (.zero, e.poison)
  else (e.val.mul e.scale, e.poison)

/-! ### Accumulation (R92 to R95) -/

/-- Length an operand imposes on the accumulation block (R92). -/
def blockOf (o : OpDesc) (transposed : Bool) : Nat :=
  match o.fmt with
  | none => 128
  | some f => if f.kind == .none then 128 else if transposed then 1 else f.block

/-- The reduction indices of a tile that lie inside both operands' reduction dimension, with their elements. -/
def State.loadLine (s : State) (o : OpDesc) (t zmap : Bool) (out : Int) (k : Int) (n : Nat) : List OpElem :=
  (List.range n).map fun (i : Nat) => s.opElem o t zmap out (k + (i : Int))

/-- The pair of partial sums over one accumulation block, and whether any position was not absent (R94). -/
def blockSum : List (OpElem × OpElem) → (F32 × F32) × Bool → (F32 × F32) × Bool
  | [], a => a
  | (x, w) :: r, a =>
    if x.absent || w.absent then blockSum r a
    else
      let p := if x.val.isZero || w.val.isZero then a.1 else knAdd a.1 (rne32 (x.val.mul w.val))
      blockSum r (p, true)

/-- The scale product at the first position of a block that carries scales (R94). -/
def scaleProduct (b : List (OpElem × OpElem)) : Ext :=
  match b.find? fun p => !(p.1.absent || p.2.absent) with
  | some p => p.1.scale.mul p.2.scale
  | none => .one

/-- A block's sum added into the output's pair (R94). -/
def addBlock (a : F32 × F32) (b : List (OpElem × OpElem)) : F32 × F32 :=
  let r := blockSum b (pair0, false)
  if r.2 then
    let sc := scaleProduct b
    addPair a (rne32 ((f32 r.1.1).mul sc)) (rne32 ((f32 r.1.2).mul sc))
  else a

/-- Blocks of a list of positions whose first absolute index is `k`; positions before index 0 hold nothing. -/
def accBlocks (len : Nat) (k : Int) (xs : List α) : List (List α) :=
  if k < 0 then runs len 0 (xs.drop (-k).toNat) else runs len k.toNat xs

/-- One output element accumulated over a tile, continuing its pair (R94, R129). -/
def accumulate (len : Nat) (k : Int) (row col : List OpElem) (a : Acc) : Acc :=
  let p := (accBlocks len k (List.zip row col)).foldl addBlock (a.s, a.c)
  { a with s := p.1, c := p.2, poison := a.poison || row.any (·.poison) || col.any (·.poison) }

/-! ### Table products (R150 to R158) -/

/-- Weight bits taken by the planes of a code (R153). -/
def planeValue (e : Elem) (p code : Nat) : Int :=
  match e with
  | .i8 =>
    let v := sext 8 code
    let lim : Int := 2 ^ (p - 1)
    if v < -lim then -lim else if v > lim - 1 then lim - 1 else v
  | .t2 => if code == 1 then 1 else if code == 3 then -1 else 0
  | .b1 => if code % 2 == 1 then -1 else 1
  | .i4 => sext 4 code
  | .i2 => sext 2 code
  | _ => 0

/-- The shared exponent of a group: the largest keystone exponent − 511 over its finite non-zero activations (R154). -/
def groupExp (e : Elem) (g : List OpElem) : Option Int :=
  g.foldl (fun m x =>
    if x.absent || !x.val.isFin || x.val.isZero then m
    else
      let k : Int := (e.keystone x.code).exp.toNat - 511
      some (match m with | none => k | some y => max y k)) none

/-- An activation aligned to the grid of step 2^(eg − 11) by the SR branch of R50 (R155). -/
def alignTo (eg : Int) (byte : Nat) (x : OpElem) : Int :=
  if x.absent then 0
  else match x.val with
    | .fin s n d =>
      let q := scaleQ n d (eg - 11)
      let r : Int := roundInt .sr byte q.1 q.2
      if s then -r else r
    | _ => 0

/-- Whether alignment loses significant bits of an activation (R159). -/
def alignInexact (eg : Int) (x : OpElem) : Bool :=
  if x.absent then false
  else match x.val with | .fin _ n d => let q := scaleQ n d (eg - 11); q.1 % q.2 != 0 | _ => false

/-- The random byte of one activation (R156): absolute index `x`, stored row `m`, `inner` the row length. -/
def alignByte (seed leaf core inst step inner m x : Nat) : Nat :=
  let o := m * cdiv inner 128 + x / 128
  let pos := (inst % 2 ^ 16) * 2 ^ 48 + (x % 128) * 2 ^ 40 + (o / 16) % 2 ^ 40
  ((philox seed (ctrOf (streamId leaf core 0x10) pos step)) >>> (8 * (o % 16))) % 256

/-- What a table product needs besides its operands. -/
structure TableCtx where
  act : Elem
  weight : Elem
  planes : Nat
  seed : Nat
  leaf : Nat
  core : Nat
  inst : Nat
  step : Nat
  inner : Nat
deriving DecidableEq, Repr

/-- One group added into the block sum of row `m` (R158); `k` is the absolute index of its first position. -/
def addGroup (t : TableCtx) (m : Nat) (k : Nat) (g : List (OpElem × OpElem)) (a : (F32 × F32) × Bool) : (F32 × F32) × Bool :=
  if g.all fun p => p.1.absent || p.2.absent then a
  else if g.any fun p => !p.1.val.isFin then (blockSum g (a.1, true))
  else
    match groupExp t.act (g.map (·.1)) with
    | none => (a.1, true)
    | some eg =>
      let z := (List.zip (List.range g.length) g).foldl (fun (z : Int) ip =>
        let q := alignTo eg (alignByte t.seed t.leaf t.core t.inst t.step t.inner m (k + ip.1)) ip.2.1
        z + (if ip.2.2.absent then (if t.weight == .b1 then q else 0) else q * planeValue t.weight t.planes ip.2.2.code)) 0
      (knAdd a.1 (rne32 (.dyadic (z < 0) z.natAbs (eg - 11))), true)

/-- Groups of four positions aligned at multiples of 4 within a block (R154). -/
def addGroups (t : TableCtx) (m : Nat) : Nat → List (List (OpElem × OpElem)) → (F32 × F32) × Bool → (F32 × F32) × Bool
  | _, [], a => a
  | k, g :: gs, a => addGroups t m (k + g.length) gs (addGroup t m k g a)

/-- Blocks of a table product (R158). -/
def tableBlocks (t : TableCtx) (m : Nat) : Nat → List (List (OpElem × OpElem)) → F32 × F32 → F32 × F32
  | _, [], a => a
  | k, b :: bs, a =>
    let r := addGroups t m k (runs 4 k b) (pair0, false)
    let a' := if r.2 then
        let sc := scaleProduct b
        addPair a (rne32 ((f32 r.1.1).mul sc)) (rne32 ((f32 r.1.2).mul sc))
      else a
    tableBlocks t m (k + b.length) bs a'

/-- One output element of a table product, continuing its pair. -/
def tAccumulate (t : TableCtx) (len : Nat) (m : Int) (k : Int) (row col : List OpElem) (a : Acc) : Acc :=
  let p := tableBlocks t m.toNat (max k 0).toNat (accBlocks len k (List.zip row col)) (a.s, a.c)
  { a with s := p.1, c := p.2, poison := a.poison || row.any (·.poison) || col.any (·.poison) }

/-! ### The side path (R75 to R78) -/

/-- Channels of a group of the outlier entry at `outlAddr`, absolute, ascending, with the entry's poison. -/
def State.outlierGroup (s : State) (o : OpDesc) (g : Nat) : List Nat × Bool :=
  let w := s.nat (o.outlAddr + 8 * g) 8
  ((outlierIdx (min 128 (o.inner - 128 * g)) w).map (128 * g + ·), s.poisoned (o.outlAddr + 8 * g) 8)

def State.outliers (s : State) (o : OpDesc) : List (List Nat × Bool) :=
  (List.range (cdiv o.inner 128)).map (s.outlierGroup o)

/-- Address of the side value of row `r`, group `g`, slot `j` (R77; log 21: at side_addr of the tensor that carries
outlier = 1). -/
def sideSlotAddr (o : OpDesc) (r g j : Nat) : Nat := o.sideAddr + (r * cdiv o.inner 128 + g) * 16 + 2 * j

/-- A BF16 word read from `a`. -/
def State.bf16At (s : State) (a : Nat) : Ext × Bool := let c := s.codeAt .bf16 a 0; (Elem.bf16.decode c.1, c.2)

/-- The terms of the side sum of output row `i` of the outlier operand `o` against row `j` of its partner `p`, for
channels in [k, k+n), ascending (R78). -/
def State.sideTerms (s : State) (o p : OpDesc) (i j : Nat) (k : Int) (n : Nat) : List (Ext × Ext × Bool) :=
  if o.sideEn && p.sideEn then
    (List.zip (List.range (cdiv o.inner 128)) (s.outliers o)).flatMap fun g =>
      (List.zip (List.range g.2.1.length) g.2.1).filterMap fun jc =>
        let c : Nat := jc.2
        if k ≤ (c : Int) && (c : Int) < k + n then
          let a := s.bf16At (sideSlotAddr o i g.1 jc.1)
          let b := s.bf16At (p.sideAddr + j * (2 * p.inner) + 2 * c)
          some (a.1, b.1, a.2 || b.2 || g.2.2)
        else none
  else []

/-- The side pair of one output continued over a tile (R78). -/
def addSide (ts : List (Ext × Ext × Bool)) (a : Acc) : Acc :=
  ts.foldl (fun a t =>
    let q := knAdd (a.ss, a.sc) (rne32 (t.1.mul t.2.1))
    { a with ss := q.1, sc := q.2, poison := a.poison || t.2.2 }) a

/-- The side pair added as one term when the reduction is complete (R94). -/
def Acc.closeSide (a : Acc) : Acc :=
  let p := addPair (a.s, a.c) a.ss a.sc
  { a with s := p.1, c := p.2, ss := 0#32, sc := 0#32 }

/-! ### The pairing check (R72, R97) -/

/-- Whether two reduction operands fail the pairing check. -/
def pairFails (r c : OpDesc) (rowT colT : Bool) : Bool :=
  match r.fmt, c.fmt with
  | some a, some b =>
    a.rot != b.rot || a.smooth != b.smooth || (a.smooth && r.smoothAddr != c.smoothAddr) || (a.outlier && b.outlier) ||
    (rowT && (a.rot != 0 || a.smooth || a.outlier)) || (colT && (b.rot != 0 || b.smooth || b.outlier))
  | _, _ => false

/-! ### One tile -/

/-- Number of chunks a tile skips: 64-aligned runs of the reduction whose granules are all asserted zero (R104). -/
def State.chunksSkipped (s : State) (o : OpDesc) (t : Bool) (p : Place) : Nat :=
  if !o.zmapEn then 0
  else
    let red := if t then o.rows else o.inner
    let outs := if t then o.inner else o.rows
    let k0 := (max p.k 0).toNat
    let k1 := min (p.k + p.kLen).toNat red
    let m0 := (max p.m 0).toNat
    let m1 := min (p.m + p.mLen).toNat outs
    if k1 ≤ k0 || m1 ≤ m0 then 0
    else
      ((List.range (cdiv k1 64 - k0 / 64)).filter fun i =>
        let c0 := (k0 / 64 + i) * 64
        let ks := (List.range (min (c0 + 64) red - c0)).map (c0 + ·)
        (List.range (m1 - m0)).all fun x => ks.all fun k =>
          if t then s.granuleZero o k (m0 + x) else s.granuleZero o (m0 + x) k).length

/-- A tile accumulated into the rows of a slot (R94, R78). -/
def State.runTile (s : State) (r c : OpDesc) (rowT colT : Bool) (p : Place) (acc : List (List Acc)) : List (List Acc) :=
  let len := min (blockOf r rowT) (blockOf c colT)
  let rows := (List.range p.mLen).map fun (i : Nat) => s.loadLine r rowT true (p.m + (i : Int)) p.k p.kLen
  let cols := (List.range p.nLen).map fun (j : Nat) => s.loadLine c colT false (p.n + (j : Int)) p.k p.kLen
  let ro := match r.fmt with | some f => f.outlier && !rowT | none => false
  let co := match c.fmt with | some f => f.outlier && !colT | none => false
  acc.mapIdx fun i line => line.mapIdx fun j a =>
    let x := accumulate len p.k (rows.getD i []) (cols.getD j []) a
    let ri := (p.m + (i : Int)).toNat
    let cj := (p.n + (j : Int)).toNat
    if ro && !co then addSide (s.sideTerms r c ri cj p.k p.kLen) x
    else if co && !ro then addSide (s.sideTerms c r cj ri p.k p.kLen) x
    else x

/-- A table product's tile accumulated into the rows of a slot (R158). -/
def State.runTable (s : State) (t : TableCtx) (r c : OpDesc) (p : Place) (acc : List (List Acc)) : List (List Acc) :=
  let len := min (blockOf r false) (blockOf c false)
  let rows := (List.range p.mLen).map fun (i : Nat) => s.loadLine r false false (p.m + (i : Int)) p.k p.kLen
  let cols := (List.range p.nLen).map fun (j : Nat) => s.loadLine c false false (p.n + (j : Int)) p.k p.kLen
  let ro := match r.fmt with | some f => f.outlier | none => false
  let co := match c.fmt with | some f => f.outlier | none => false
  acc.mapIdx fun i line => line.mapIdx fun j a =>
    let x := tAccumulate t len (p.m + (i : Int)) p.k (rows.getD i []) (cols.getD j []) a
    let ri := (p.m + (i : Int)).toNat
    let cj := (p.n + (j : Int)).toNat
    if ro && !co then addSide (s.sideTerms r c ri cj p.k p.kLen) x
    else if co && !ro then addSide (s.sideTerms c r cj ri p.k p.kLen) x
    else x

/-! ### Counts of a tile -/

/-- Engine counts of one operand of a tile: T2 reserved codes, invalid scales and repaired mask tiles (R37, R41, R57,
R101). -/
def State.loadCounts (s : State) (o : OpDesc) (t zmap : Bool) (out : Int) (nOut : Nat) (k : Int) (n : Nat) : List Nat × Nat :=
  match o.fmt with
  | none => ([], 0)
  | some f =>
    let els := (List.range nOut).flatMap fun (i : Nat) => s.loadLine o t zmap (out + (i : Int)) k n
    let res := (els.filter (·.reserved)).map fun _ => RESERVED_CODE
    let r0 := (max (if t then k else out) 0).toNat
    let r1 := min ((if t then k + n else out + nOut)).toNat o.rows
    let c0 := (max (if t then out else k) 0).toNat
    let c1 := min ((if t then out + nOut else k + n)).toNat o.inner
    let inv :=
      if f.kind == .none || r1 ≤ r0 || c1 ≤ c0 then []
      else
        let bs := (List.range (r1 - r0)).flatMap fun r =>
          ((List.range (cdiv c1 f.block - c0 / f.block)).filter fun b => f.kind.invalid (s.scaleAt o (r0 + r) (c0 / f.block + b)).1).map fun _ => SCALE_INVALID
        bs ++ (if f.kind == .e4m3t && !posNormal32 (s.f32At o.tscale).1 then [SCALE_INVALID] else [])
    let rep :=
      if !o.maskEn || r1 ≤ r0 || c1 ≤ c0 then 0
      else ((List.range (cdiv r1 8 - r0 / 8)).flatMap fun r =>
        (List.range (cdiv c1 8 - c0 / 8)).filter fun c =>
          let m := s.maskTile o ((r0 / 8 + r) * 8) ((c0 / 8 + c) * 8)
          m.1 != m.2.1).length
    (res ++ inv, rep)

/-- Table-engine counts of a tile: inexact groups, special groups and saturated weights (R153, R158, R159). -/
def State.tableCounts (s : State) (t : TableCtx) (r c : OpDesc) (p : Place) : Nat × Nat × Nat :=
  let len := min (blockOf r false) (blockOf c false)
  let groups := (List.range p.mLen).flatMap fun (i : Nat) =>
    let row := s.loadLine r false false (p.m + (i : Int)) p.k p.kLen
    (accBlocks len p.k row).foldl (fun (a : Nat × List (List OpElem)) b =>
      (a.1 + b.length, a.2 ++ runs 4 a.1 b)) ((max p.k 0).toNat, []) |>.2
  let special := (groups.filter fun g => g.any fun x => !x.absent && !x.val.isFin).length
  let inexact := (groups.filter fun g => (g.all fun x => x.absent || x.val.isFin) &&
    (match groupExp t.act g with | none => false | some eg => g.any (alignInexact eg))).length
  let sat := if t.weight != .i8 then 0 else
    ((List.range p.nLen).flatMap fun (j : Nat) =>
      (s.loadLine c false false (p.n + (j : Int)) p.k p.kLen).filter fun x => !x.absent && planeValue .i8 t.planes x.code != sext 8 x.code).length
  (inexact, special, sat)

end Sys2Proof.Machine
end

