-- ==== Sys2Proof/Machine/Ops.lean ====
section
/-! DEFINITION. Named operations shared by the families: reach of agents (R89, R250, R258), clamp reports (R7),
gate faults (R231, R462), sync objects (R138 to R142), streams, and writing packed elements (R38, R265). -/

namespace Sys2Proof.Machine

/-- Agents that reach memory (R250). -/
inductive Agent where
  | array (core : Nat) | drain (core : Nat) | vec (core : Nat) | move | trestle (cluster : Nat) | router (core : Nat)
  | camber (k : Nat) | tier | host
  /-- an operator's staging: HBM, the DDR5 tier outside device-owned areas, cluster memory (R323) -/
  | op
deriving DecidableEq, Repr

/-- Gate fault bits (R231). -/
abbrev FB_POISON : Nat := 0
abbrev FB_NONFINITE_G : Nat := 1
abbrev FB_NONFINITE_W : Nat := 2
abbrev FB_LINK : Nat := 3
abbrev FB_CHECKSUM : Nat := 4
abbrev FB_HANG : Nat := 5
abbrev FB_UNIT : Nat := 6

/-- Clamp entry codes (R348). -/
abbrev CL_SAT : Nat := 1
abbrev CL_UP : Nat := 2
abbrev CL_DOWN : Nat := 3
abbrev CL_DEFAULT : Nat := 4
abbrev CL_NULL : Nat := 5
abbrev CL_ZERO : Nat := 6

/-- Host and pier counters (R346). -/
abbrev HC_ETH_UNSUPPORTED : Nat := 0
abbrev HC_CMD_MALFORMED : Nat := 1
abbrev HC_AUTH_FAIL : Nat := 2
abbrev HC_SUBMIT_DISCARDED : Nat := 3
abbrev HC_STEP_LATE : Nat := 4
abbrev HC_SYNC_OVERFLOW : Nat := 5

/-- Activity counters (R118). -/
abbrev AC_TILES : Nat := 0
abbrev AC_LENT_IN : Nat := 1
abbrev AC_RECOVERY : Nat := 2
abbrev AC_CHUNKS : Nat := 3
abbrev AC_MASK_REPAIR : Nat := 4
abbrev AC_BANK_STALL : Nat := 5
abbrev AC_STALL_CYCLES : Nat := 6
abbrev AC_POISON_OUT : Nat := 7

namespace State

/-! ### Areas and reach -/

/-- First address and end of a DDR5 area declared by first location and count, cut at the end of the populated tier
(R186, R252). -/
def ddrArea (s : State) (first count : Nat) : Nat × Nat :=
  (DDR_BASE + first * 0x10000, DDR_BASE + max (first * 0x10000) (min ((first + count) * 0x10000) s.ddrBytes))

def memDecl (s : State) : Nat := s.nat MEM_DECL 64
def offArea (s : State) : Nat × Nat := let v := s.memDecl; s.ddrArea (fld v 505 481) (fld v 480 455)
def fwArea (s : State) : Nat × Nat := let v := s.memDecl; s.ddrArea (fld v 454 430) (fld v 429 404)
def budArea (s : State) : Nat × Nat := let v := s.memDecl; s.ddrArea (fld v 403 379) (fld v 378 353)

/-- Page declaration fields (R186). -/
def pageDecl (s : State) : Nat := s.nat PAGE_DECL 32
def spillArea (s : State) : Nat × Nat := let v := s.pageDecl; s.ddrArea (fld v 207 183) (fld v 182 157)

/-- An address of a DDR5 area that belongs to the device (R258). -/
def deviceOwned (s : State) (a : Nat) : Bool := isDdr a && inRanges [s.spillArea, s.fwArea, s.budArea] a

/-- Read-only while a plan is loaded: program regions, the plan's tables and named descriptors (R121). -/
def readOnly (s : State) (a : Nat) : Bool :=
  s.plan.loaded && (inRanges s.plan.readonly a || (isDesc a && !isPageWindow a && a < RING_AREA))

/-- Whether an agent reaches a local address (R250, R254, R258). -/
def reach (s : State) (g : Agent) (wr : Bool) (a : Nat) : Bool :=
  s.mapped a && !(wr && s.readOnly a) &&
  match g with
  | .array k => inCore k a
  | .drain k => inCore k a || inCluster (k / 32) a
  | .vec k | .router k => inCore k a || inCluster (k / 32) a || (isHbm a && !isReserve a)
  | .move => !isReserve a && !s.deviceOwned a
  | .trestle c => inCluster c a || (CORE_BASE ≤ a && a < DESC_BASE && coreSlotOf a / 32 == c)
  | .camber _ => isHbm a && !isReserve a
  | .tier => isHbm a || isDdr a
  | .host => !isReserve a && !s.deviceOwned a
  | .op => (isHbm a && !isReserve a) || (isDdr a && !s.deviceOwned a) || inCluster (clusterSlotOf a) a

/-- The first byte of a range an agent does not reach. -/
def outside (s : State) (g : Agent) (wr : Bool) (a n : Nat) : Option Nat :=
  ((List.range n).find? fun i => !s.reach g wr (a + i)).map (a + ·)

/-- The first byte outside over a list of ranges. -/
def outsideAll (s : State) (g : Agent) (wr : Bool) (rs : List (Nat × Nat)) : Option Nat :=
  rs.findSome? fun r => s.outside g wr r.1 r.2

/-- Bytes read by an agent: a byte outside its reach delivers zero without poison (R33). -/
def readBy (s : State) (g : Agent) (a n : Nat) : List (Byte × Bool) :=
  (List.range n).map fun i => if s.reach g false (a + i) then s.byte (a + i) else (0#8, false)

/-- Bytes written by an agent, run by run: bytes outside its reach are discarded (R33). -/
def writeBy (s : State) (g : Agent) : Nat → List (Byte × Bool) → State
  | _, [] => s
  | a, b :: bs =>
    let k := ((b :: bs).zipIdx.takeWhile fun p => s.reach g true (a + p.2)).length
    if k = (b :: bs).length then s.write a (b :: bs)
    else if k = 0 then writeBy s g (a + 1) bs
    else
      let s1 := s.write a ((b :: bs).take k)
      ((b :: bs).zipIdx.drop k).foldl (fun (t : State) p =>
        if s.reach g true (a + p.2) then t.write (a + p.2) [p.1] else t) s1

/-! ### Reports and faults -/

/-- A clamp entry kept in the clamp store, which holds 65,536, and counted with the command its item belongs to; items
of streams belong to JOB_START's command (R7, R347). -/
def report (s : State) (c : ClampRec) (cmd : Nat := s.job.cmdId.getD 0xFFFFFFFF) : State :=
  { s with
    clamps := (s.clamps ++ [(cmd, c)]).drop (s.clamps.length + 1 - 65536)
    host := { s.host with log := s.host.log.map fun r => if r.cmdId == cmd && cmd != 0xFFFFFFFF then { r with clamps := hold32 (r.clamps + 1) } else r } }

/-- A gate fault bit set for a step; one whose gate has been decided falls to the step in flight (R231, R462). -/
def fault (s : State) (step bit : Nat) : State :=
  let st := max step s.job.decided
  { s with job := { s.job with faults := aset s.job.faults st ((aget s.job.faults st 0) ||| 2 ^ bit) } }

def faultIf (s : State) (c : Bool) (step bit : Nat) : State := if c then s.fault step bit else s

/-! ### Streams -/

def stream (s : State) (r : SRef) : StreamSt := aget s.streams r {}
def setStream (s : State) (r : SRef) (t : StreamSt) : State :=
  { s with streams := aset s.streams r (if t.phase = (s.stream r).phase then t else { t with since := s.aclk }) }

/-- Address of a stream's context (R122). -/
def ctxAddr : SRef → Nat
  | .f k => CTX_BASE + 64 * k
  | .b k => CTX_BASE + 64 * k + 32
  | .u n => UCTX_BASE + 32 * n

def ctx (s : State) (r : SRef) : SCtx := SCtx.ofNat (s.nat (ctxAddr r) 32)

/-- The word at a stream's head (R120, R123). -/
def head (s : State) (r : SRef) : IWord := s.nat ((s.ctx r).prog + 16 * (s.stream r).pc) 16

/-- A descriptor named by index: 64 bytes at dbase + 64 × i (R124). -/
def descAddr (s : State) (r : SRef) (i : Nat) : Nat := (s.ctx r).dbase + 64 * i
def descNat (s : State) (r : SRef) (i : Nat) : Nat := s.nat (s.descAddr r i) 64

def isU : SRef → Bool | .u _ => true | _ => false
def coreOf : SRef → Nat | .f k | .b k | .u k => k

end State

/-- Loop index L<i>, 0 outside a loop (R128, R144). -/
def StreamSt.index (t : StreamSt) (i : Nat) : Nat := match t.loops[i]? with | some l => l.idx | none => 0
def StreamSt.idxs (t : StreamSt) : List Nat := t.loops.map (·.idx)

namespace State

/-! ### Sync objects (R138 to R142) -/

def syncAddr (id : Nat) : Nat := SYNC_BASE + 16 * (id % 65536)
def syncCount (s : State) (id : Nat) : Nat := s.nat (syncAddr id + 12) 4
def syncInit (s : State) (id : Nat) : Nat := s.nat (syncAddr id + 8) 4
/-- 0 NONE, 1 STEP, 2 UPDATE; 3 takes the default STEP (R138). -/
def syncMode (s : State) (id : Nat) : Nat := let m := fld (s.nat (syncAddr id) 8) 63 62; if m == 3 then 1 else m
def setSync (s : State) (id v : Nat) : State := s.writeNat (syncAddr id + 12) 4 v

/-- A parity-relative ID resolved (R139). -/
def resolveId (par : Bool) (id step d : Nat) : Nat := if par then id ^^^ ((step + d) % 2 * 0x8000) else id

/-- d of R139: 1 for a U-stream instruction after its GATE. -/
def parityOf (r : SRef) (t : StreamSt) : Nat := if isU r && t.gated then 1 else 0

/-- An amount added to an object by a stream, a collective or another pier for a step (R126, R142). The step is the
next one for an UPDATE object. -/
def syncAdd (s : State) (id amount step : Nat) : State :=
  let v := s.syncCount id + amount
  if v ≤ 0xFFFFFFFF then s.setSync id v
  else
    let a := syncAddr id + 4
    let s1 := (s.setSync id 0xFFFFFFFF).writeNat a 4 (setFld (s.nat a 4) 29 29 1)
    (s1.bump .host HC_SYNC_OVERFLOW).fault (if s.syncMode id == 2 then step + 1 else step) FB_POISON

/-- Objects set to init where a condition on the ID holds, for one mode (R140). Only entries written by a plan can
differ from zero, so the objects of the plan's list suffice. -/
def syncReset (s : State) (mode : Nat) (p : Nat → Bool) : State :=
  s.plan.syncs.foldl (fun t id => if t.syncMode id == mode && p id then t.setSync id (t.syncInit id) else t) s

/-- The wait of an instruction word (R141). -/
def waitOk (s : State) (r : SRef) (w : IWord) : Bool :=
  let t := s.stream r
  !w.waitGE || s.syncCount (resolveId w.waitPar w.waitId t.step (parityOf r t)) ≥ w.waitVal + (if w.waitLoop then t.index 0 else 0)

/-! ### Packed elements written (R38, R265) -/

/-- Bytes of consecutive elements from index `c` of the row at `a`, `n` the row length: edge bits of a byte shared
with other elements keep the old bits and their poison; the fill of a row's last group is 0. -/
def packBytes (s : State) (e : Elem) (a c n : Nat) (cells : List OutCell) : Nat × List (Byte × Bool × Bool) :=
  let b0 := e.bits * c / 8
  let off := e.bits * c % 8
  let endBit := off + e.bits * cells.length
  let atEnd := c + cells.length ≥ n
  let nb := if atEnd then e.rowBytes n - b0 else cdiv endBit 8
  let v := (cells.foldr (fun x acc => x.code % 2 ^ e.bits + acc * 2 ^ e.bits) 0) * 2 ^ off
  let lo := s.byte (a + b0)
  let hi := s.byte (a + b0 + nb - 1)
  let v1 := v + (if off == 0 then 0 else lo.1.toNat % 2 ^ off)
  let keepHi := !atEnd && endBit % 8 != 0
  let v2 := if keepHi then v1 + hi.1.toNat / 2 ^ (endBit % 8) * 2 ^ endBit else v1
  let out := (natLE nb v2).mapIdx fun i b =>
    let first := (8 * i - off) / e.bits
    let lastBit := 8 * i + 7
    let mine := (cells.drop first).take ((lastBit - min off lastBit) / e.bits + 1 - first)
    let edge := (i == 0 && off != 0 && lo.2) || (i + 1 == nb && keepHi && hi.2)
    (b, mine.any (fun x => x.poison || x.own) || edge, mine.any (·.own))
  (a + b0, out)

/-- Elements written by an agent, with the number of stored words the site itself poisons (R54, R57). -/
def writeElems (s : State) (g : Agent) (e : Elem) (a c n : Nat) (cells : List OutCell) : State × Nat :=
  if cells.isEmpty then (s, 0)
  else
    let p := s.packBytes e a c n cells
    let ws := ((p.2.mapIdx fun i x => (i, x)).filter fun x => x.2.2.2).map fun x => (p.1 + x.1) / 4
    (s.writeBy g p.1 (p.2.map fun x => (x.1, x.2.1)), ws.eraseDups.length)

/-- Scale bytes written from an address. -/
def writeScales (s : State) (g : Agent) (a : Nat) (sc : List (Nat × Bool)) : State :=
  s.writeBy g a (sc.map fun x => (BitVec.ofNat 8 x.1, x.2))

/-! ### Free values -/

/-- A fresh number for a free value. -/
def fresh (s : State) : Nat × State := (s.freeCtr, { s with freeCtr := s.freeCtr + 1 })

end State

end Sys2Proof.Machine
end

