-- ==== Sys2Proof/Machine/Span.lean ====
section
/-! DEFINITION. Spans: composite descriptors, placement, leaf sequences and the piers they cover (R22 to R29, R460). -/

namespace Sys2Proof.Machine

/-- A leaf of a span: core slot, cluster slot, die or pier, by level as in the span handle (R22, R25). -/
structure Leaf where
  level : Nat
  pier : Nat
  index : Nat
deriving DecidableEq, Repr

/-- Placement rules (R23). -/
inductive Placement where
  | list | grid | torus | block
deriving DecidableEq, Repr

/-- A span descriptor (R23). -/
structure SpanDesc where
  index : Nat
  memberLevel : Nat
  placement : Placement
  count : Nat
  rank : Nat
  mcastReq : Bool
  extents : List Nat
  memberList : Nat
  mcastGroup : Nat
  retired : Nat
  depth : Nat
deriving DecidableEq, Repr

def SpanDesc.ofNat (v : Nat) : SpanDesc :=
  let cnt := fld v 493 483 + 1
  let rk := fld v 482 481 + 1
  let ex := (List.range rk).map fun d => fld v (431 + 16 * d) (416 + 16 * d) + 1
  let clean := (List.range 4).all fun d => d < rk || fld v (431 + 16 * d) (416 + 16 * d) == 0
  let ok := clean && ex.foldl (· * ·) 1 == cnt && ex.all (· ≤ 2048)
  { index := fld v 511 500, memberLevel := fld v 499 497
    placement := match fld v 496 494 with | 1 => .grid | 2 => .torus | 3 => .block | _ => .list
    count := cnt, rank := if ok then rk else 1, mcastReq := bitOf v 480, extents := if ok then ex else [cnt]
    memberList := fld v 415 368, mcastGroup := fld v 367 356, retired := fld v 355 344, depth := fld v 343 340 }

/-- Number of a position in position order from its coordinates, dimension 0 fastest (R460). -/
def posOf : List Nat → List Nat → Nat
  | e :: es, c :: cs => c + e * posOf es cs
  | _, _ => 0

/-- Coordinates of `i` counted with the first extent fastest. -/
def coordsOf : List Nat → Nat → List Nat
  | [], _ => []
  | e :: es, i => i % e :: coordsOf es (i / e)

/-- Position at which GRID places member `i`: coordinates counted with the last dimension fastest (R23). -/
def gridPos (ex : List Nat) (i : Nat) : Nat := posOf ex (coordsOf ex.reverse i).reverse

/-- Members in position order under a placement rule. TORUS orders piers by their torus coordinates, x fastest, which
is ascending pier ID (R460). -/
def placeMembers (d : SpanDesc) (hs : List Handle) : List Handle :=
  match d.placement with
  | .list | .block => hs
  | .grid => (List.range hs.length).filterMap fun p =>
      ((List.zip (List.range hs.length) hs).find? fun x => gridPos d.extents x.1 == p).map (·.2)
  | .torus => (hs.mergeSort fun a b => a.pier ≤ b.pier)

/-- Units of a level a container of a level holds, and the first of them (R460). -/
def unitsIn (container : Handle) (level : Nat) : Nat × Nat :=
  match container.level, level with
  | 2, 0 => (512, 512 * container.index)
  | 2, 1 => (16, 16 * container.index)
  | 3, 0 => (2048, 0)
  | 3, 1 => (64, 0)
  | 3, 2 => (4, 0)
  | _, _ => (0, 0)

namespace State

def spanDesc (s : State) (i : Nat) : SpanDesc := SpanDesc.ofNat (s.nat (SPAN_TABLE + 64 * i) 64)

/-- Whether an index holds a descriptor the device installed: its depth is at least 1 (R23). -/
def spanValid (s : State) (i : Nat) : Bool := i < 4096 && (s.spanDesc i).depth != 0

/-- Piers the job owns; with no plan loaded, every pier that roll call has attached (R22, R23). -/
def ownedPiers (s : State) : List Nat :=
  if s.plan.loaded then s.plan.piers else s.pierId :: (s.net.maps.map (·.pier)).filter (· != s.pierId)

/-- Whether a handle names something (R22). -/
def handleOk (s : State) (h : Handle) : Bool :=
  match h.level with
  | 0 => h.index < 2048 && s.ownedPiers.contains h.pier
  | 1 => h.index < 64 && s.ownedPiers.contains h.pier
  | 2 => h.index < 4 && s.ownedPiers.contains h.pier
  | 3 => h.index == 0 && s.ownedPiers.contains h.pier
  | 4 => h.pier == 0 && s.spanValid h.index
  | _ => false

/-- The field of a handle that names nothing (R22). -/
def handleBad (s : State) (h : Handle) : Option (Nat × Nat) :=
  if s.handleOk h then none
  else if h.level > 4 then some (31, 29)
  else if h.level == 4 then (if h.pier != 0 then some (28, 17) else some (11, 0))
  else if !s.ownedPiers.contains h.pier then some (28, 17)
  else some (11, 0)

/-- Members of an installed span as its creation kept them; the copy of the descriptor on every pier names the same ones
(R23, R24). -/
def spanList (s : State) (i : Nat) : List Handle := ((aget? s.net.spanLists i).getD []).map Handle.ofNat

/-- The member handles of a descriptor in position order (R24, R460). -/
def members (s : State) (d : SpanDesc) : List Handle := placeMembers d (s.spanList d.index)

/-- The leaf sequence of a handle, `fuel` bounding the nesting depth of 8 (R25, R460). -/
def leaves : Nat → State → Handle → List Leaf
  | 0, _, _ => []
  | fuel + 1, s, h =>
    if h.level < 4 then [⟨h.level, h.pier, h.index⟩]
    else
      let d := s.spanDesc h.index
      match d.placement with
      | .block =>
        let c := (s.spanList d.index).headD (Handle.ofNat 0)
        let u := unitsIn c d.memberLevel
        (List.range u.1).map fun i => ⟨d.memberLevel, c.pier, u.2 + i⟩
      | _ => (s.members d).flatMap fun m => leaves fuel s m

def leafSeq (s : State) (h : Handle) : List Leaf := leaves 10 s h

/-- The pier that serves a leaf's pier: itself, or a spare bound to its leaf (R27). -/
def servedBy (s : State) (p : Nat) : Nat := aget s.plan.subst p p

/-- The distinct piers a span covers, in leaf order (R28). -/
def spanPiers (s : State) (h : Handle) : List Nat := ((s.leafSeq h).map fun l => s.servedBy l.pier).eraseDups

/-- Whether one leaf holds another, or is it: containments of R25. -/
def leafHolds (a b : Leaf) : Bool :=
  a.pier == b.pier && a.level ≥ b.level &&
  match a.level, b.level with
  | 3, _ => true
  | 2, 2 => a.index == b.index
  | 2, 1 => b.index / 16 == a.index
  | 2, 0 => b.index / 512 == a.index
  | 1, 1 => a.index == b.index
  | 1, 0 => b.index / 32 == a.index
  | _, _ => a.level == b.level && a.index == b.index

/-- The first leaf that another leaf before it duplicates or that contains or lies inside one before it (R25). -/
def firstDup : List Leaf → List Leaf → Option Leaf
  | _, [] => none
  | seen, l :: ls => if seen.any fun x => leafHolds x l || leafHolds l x then some l else firstDup (seen ++ [l]) ls

/-- Leaf position of a pier in a span. -/
def leafPos (s : State) (h : Handle) (pier : Nat) : Option Nat := (s.leafSeq h).findIdx? fun l => s.servedBy l.pier == pier

end State

end Sys2Proof.Machine
end

