-- ==== Sys2Proof/Machine/Fabric.lean ====
section
/-! DEFINITION. The viaduct: flits, routes and route tables, and sending with credits and retry buffers (R273 to R278,
R281 to R285). -/

namespace Sys2Proof

/-! ### The flit header (R273) -/

namespace Flit
open Machine

def seq (f : Flit) : Nat := fld f.hdr 159 148
def ack (f : Flit) : Nat := fld f.hdr 147 136
def ackValid (f : Flit) : Bool := bitOf f.hdr 135
def vc (f : Flit) : Nat := fld f.hdr 134 133
def type (f : Flit) : Nat := fld f.hdr 132 129
/-- Credits returned for a channel: VC3 lies highest. -/
def crd (f : Flit) (v : Nat) : Nat := fld f.hdr (116 + 4 * v) (113 + 4 * v)
def dst (f : Flit) : Nat := fld f.hdr 112 101
def srcPier (f : Flit) : Nat := fld f.hdr 100 89
def ttl (f : Flit) : Nat := fld f.hdr 88 83
def via (f : Flit) : Nat := fld f.hdr 82 71
def len (f : Flit) : Nat := fld f.hdr 70 65
def addr (f : Flit) : Nat := fld f.hdr 64 17
def tag (f : Flit) : Nat := fld f.hdr 16 2
def epoch (f : Flit) : Bool := bitOf f.hdr 1
def eom (f : Flit) : Bool := bitOf f.hdr 0

def withHdr (f : Flit) (hi lo v : Nat) : Flit := { f with hdr := setFld f.hdr hi lo v }

/-- Bytes 0 to 251: header, payload, poison map. -/
def image (f : Flit) : List Byte :=
  natLE 20 f.hdr ++ (List.range 56).flatMap (fun i => natLE 4 (f.words.getD i 0)) ++ natLE 8 f.pmap

def crcOf (f : Flit) : Nat := crc32c f.image
def sealed (f : Flit) : Flit := { f with crc := f.crcOf }

/-- Payload bytes with the poison of their words. -/
def bytes (f : Flit) : List (Byte × Bool) :=
  let all := f.words.zipIdx.flatMap fun w => (natLE 4 w.1).map fun b => (b, bitOf f.pmap w.2)
  if f.tail == 0 then all else all.take (all.length - 4 + f.tail)

end Flit

namespace Machine

abbrev FT_IDLE : Nat := 0
abbrev FT_WRITE : Nat := 1
abbrev FT_READ_REQ : Nat := 2
abbrev FT_SIGNAL : Nat := 3
abbrev FT_COLL : Nat := 4
abbrev FT_CTRL : Nat := 5
abbrev FT_RETRY_REQ : Nat := 6
abbrev FT_IDENT : Nat := 7

/-- Sequenced flit types (R274). -/
def sequencedType (t : Nat) : Bool := 1 ≤ t && t ≤ 5

/-- Virtual channel a type is injected on (R276). -/
def firstVc (t : Nat) : Nat := if t == FT_COLL then 2 else if t == FT_READ_REQ || t == FT_CTRL then 3 else 0

/-- Whether a virtual channel accepts a type (R275, R276). -/
def vcAccepts (v t : Nat) : Bool :=
  match v with
  | 0 | 1 => t == FT_WRITE || t == FT_SIGNAL
  | 2 => t == FT_COLL
  | _ => t == FT_READ_REQ || t == FT_CTRL

/-- Viaduct counters (R294). -/
abbrev PT_TX : Nat := 0
abbrev PT_RX : Nat := 1
abbrev PT_FEC_CORRECTED : Nat := 2
abbrev PT_FEC_UNCORRECTABLE : Nat := 3
abbrev PT_CRC_FAIL : Nat := 4
abbrev PT_MALFORMED : Nat := 5
abbrev PT_RETRIES : Nat := 6
abbrev PT_LOST : Nat := 7
abbrev PT_LANE_DROPS : Nat := 8
abbrev PT_STALL : Nat := 9
abbrev PT_TTL : Nat := 10
abbrev PT_NO_ROUTE : Nat := 11
abbrev PT_STALE : Nat := 12
abbrev PT_REMOTE_CLAMP : Nat := 13

/-! ### Port roles and link maps (R281, R290) -/

/-- Express ports. -/
def expressPorts : List Nat := [6, 7, 14, 15]
def isExpress (p : Nat) : Bool := p % 8 ≥ 6

/-- Ports of a torus direction, lower number first: dimension 0 to 2, and + where `up`. -/
def dirPorts (dim : Nat) (up : Bool) : Nat × Nat := let p := 2 * dim + b2n (!up); (p, p + 8)

/-- Extents of the torus: CHAIN is a torus of extent n along x (R282). -/
abbrev Extents := Nat × Nat × Nat
def extOf (e : Extents) : Nat → Nat | 0 => e.1 | 1 => e.2.1 | _ => e.2.2

/-- Role code of a port; 7 for one of a dimension with extent 1 (R281, R282). -/
def roleOf (e : Extents) (p : Nat) : Nat :=
  if isExpress p then 6 else if extOf e (p % 8 / 2) ≤ 1 then 7 else p % 8

/-- Link map entry fields (R290). -/
def lmPier (v : Nat) : Nat := fld v 63 52
def lmPort (v : Nat) : Nat := fld v 51 48
def lmUp (v : Nat) : Bool := fld v 44 42 == 2

def PortState.code : PortState → Nat
  | .down => 0 | .training => 1 | .up => 2 | .miswired => 3 | .disabled => 4

/-- A pier in the link map, by ID. -/
def mapOf (ms : List PierMap) (p : Nat) : Option PierMap := ms.find? fun m => m.pier == p

def pmCoord (m : PierMap) : Nat → Nat | 0 => m.x | 1 => m.y | _ => m.z

/-- The anchor of a spare pier and the anchor's port that leads to it (R289). -/
def anchorOf (ms : List PierMap) (p : Nat) : Option (Nat × Nat) :=
  let cs := ms.filterMap fun m =>
    if m.spare then none
    else (expressPorts.find? fun q => lmUp (m.links.getD q 0) && lmPier (m.links.getD q 0) == p).map fun q => (m.pier, q)
  cs.foldl (fun best c => match best with | some b => if c.1 < b.1 then some c else some b | none => some c) none

/-- The port of an express link from one pier to another, lowest first. -/
def expressTo (m : PierMap) (b : Nat) : Option Nat :=
  expressPorts.find? fun q => lmUp (m.links.getD q 0) && lmPier (m.links.getD q 0) == b

/-- The way round a ring from one coordinate to another: none where they are equal; + where the ways tie (R283). -/
def ringWay (n a b : Nat) : Option (Bool × Nat) :=
  let d := (b + n - a % n) % n
  if d == 0 then none else if 2 * d ≤ n then some (true, d) else some (false, n - d)

/-- The next torus hop toward coordinates: x, then y, then z. -/
def torusHop (e : Extents) (a b : Nat → Nat) : Option (Nat × Bool) :=
  (List.range 3).findSome? fun d => (ringWay (extOf e d) (a d) (b d)).map fun w => (d, w.1)

/-- The pier one hop away over a live port of a direction, by the link map. -/
def torusNext (ms : List PierMap) (m : PierMap) (dim : Nat) (up : Bool) : Option PierMap :=
  let q := dirPorts dim up
  let at' (p : Nat) : Option PierMap := let v := m.links.getD p 0; if lmUp v then mapOf ms (lmPier v) else none
  match at' q.1 with | some x => some x | none => at' q.2

/-- Hops of the torus part of a leg, where it crosses only live links. -/
def torusHops (e : Extents) (ms : List PierMap) : Nat → PierMap → PierMap → Option Nat
  | 0, _, _ => none
  | f + 1, a, b =>
    match torusHop e (pmCoord a) (pmCoord b) with
    | none => if a.pier == b.pier then some 0 else none
    | some (d, up) => (torusNext ms a d up).bind fun n => (torusHops e ms f n b).map (· + 1)

/-- Hops of a leg, where it crosses only live links (R283). -/
def legHops (e : Extents) (ms : List PierMap) (a b : Nat) : Option Nat :=
  if a == b then some 0
  else
    match mapOf ms a, mapOf ms b with
    | some ma, some mb =>
      if (expressTo ma b).isSome then some 1
      else
        let first : Option (PierMap × Nat) :=
          if ma.spare then (anchorOf ms a).bind fun x => (mapOf ms x.1).bind fun m => if (expressTo ma x.1).isSome then some (m, 1) else none
          else some (ma, 0)
        let last : Option (PierMap × Nat) :=
          if mb.spare then (anchorOf ms b).bind fun x => (mapOf ms x.1).map fun m => (m, 1) else some (mb, 0)
        match first, last with
        | some x, some y => (torusHops e ms 64 x.1 y.1).map fun h => h + x.2 + y.2
        | _, _ => none
    | _, _ => none

/-- The via pier of a VIA route: fewest hops, then the lowest ID (R284). -/
def viaPier (e : Extents) (ms : List PierMap) (a b : Nat) : Option Nat :=
  (ms.foldl (fun (best : Option (Nat × Nat)) m =>
    match legHops e ms a m.pier, legHops e ms m.pier b with
    | some h1, some h2 =>
      let c := (h1 + h2, m.pier)
      match best with
      | some x => if c.1 < x.1 || (c.1 == x.1 && c.2 < x.2) then some c else best
      | none => some c
    | _, _ => best) none).map (·.2)

/-- One route table entry (R284). -/
def routeEntry (e : Extents) (ms : List PierMap) (me : Nat) (m : PierMap) : Nat :=
  let reach : Nat × Nat :=
    if m.pier == me then (3, 0xFFF)
    else if (legHops e ms me m.pier).isSome then (0, 0xFFF)
    else match viaPier e ms me m.pier with | some v => (1, v) | none => (2, 0xFFF)
  let anc := if m.spare then anchorOf ms m.pier else none
  let xyz := match anc.bind fun x => mapOf ms x.1 with | some k => (k.x, k.y, k.z) | none => (m.x, m.y, m.z)
  let tail := xyz.1 % 32 * 2 ^ 28 + xyz.2.1 % 16 * 2 ^ 24 + xyz.2.2 % 16 * 2 ^ 20
  let ex := match anc with | some x => 2 ^ 49 + x.1 * 2 ^ 37 + x.2 * 2 ^ 33 | none => 0
  reach.2 * 2 ^ 52 + reach.1 * 2 ^ 50 + ex + tail

/-- A pier's whole route table, from the link map alone (R284). -/
def routeTable (e : Extents) (ms : List PierMap) (me : Nat) : List (Nat × Nat) := ms.map fun m => (m.pier, routeEntry e ms me m)

namespace State

/-! ### Ports -/

def port (s : State) (p : Nat) : PortSt := aget s.net.ports p {}
def setPort (s : State) (p : Nat) (v : PortSt) : State := { s with net := { s.net with ports := aset s.net.ports p v } }
def ext (s : State) : Extents := (s.net.ex, s.net.ey, s.net.ez)
def portUp (s : State) (p : Nat) : Bool := (s.port p).state == .up
def allPorts : List Nat := List.range 16

/-- A gate fault bit set for every step in flight on this pier (R279, R283). -/
def faultInFlight (s : State) (bit : Nat) : State :=
  if s.job.running then
    (s.job.begun.filter (s.job.decided ≤ ·)).foldl (fun t st => t.fault st bit) s
  else s

/-! ### Routes of one flit (R283, R285) -/

/-- Route table entry for a destination: UNREACHABLE where none is listed. -/
def routeOf (s : State) (d : Nat) : Nat := aget s.net.routes d (0xFFF * 2 ^ 52 + 2 * 2 ^ 50)
def rtReach (v : Nat) : Nat := fld v 51 50
def rtVia (v : Nat) : Nat := fld v 63 52
def rtCoord (v : Nat) : Nat → Nat | 0 => fld v 32 28 | 1 => fld v 27 24 | _ => fld v 23 20

def coord (s : State) : Nat → Nat | 0 => s.net.x | 1 => s.net.y | _ => s.net.z

/-- Member of a port pair by tag bit 0, or the other one where that was not UP when the tables were installed
(R281). -/
def pairMember (s : State) (q : Nat × Nat) (bit0 : Nat) : Nat :=
  let want := if bit0 == 0 then q.1 else q.2
  let other := if bit0 == 0 then q.2 else q.1
  if s.net.live.contains want || !s.net.live.contains other then want else other

/-- The port a leg takes out of this pier, and whether it starts here. -/
def legPort (s : State) (target bit0 : Nat) (starts : Bool) : Option Nat :=
  let here := s.net.maps.find? fun m => m.pier == s.pierId
  let direct := if starts then here.bind fun m => expressTo m target else none
  match direct with
  | some p => some p
  | none =>
    let v := s.routeOf target
    if s.net.spare then
      (anchorOf s.net.maps s.pierId).bind fun x => here.bind fun m => expressTo m x.1
    else
      match torusHop s.ext s.coord (rtCoord v) with
      | some (d, up) => some (s.pairMember (dirPorts d up) bit0)
      | none => if bitOf v 49 && fld v 48 37 == s.pierId then some (fld v 36 33) else none

/-- Members of a multicast group or of the broadcast (R29, R285). -/
def groupMembers (s : State) (g : Nat) : List Nat := if g == 0xFFF then s.ownedPiers else aget s.net.groups g []

/-- Whether this pier is itself a member of a group it writes to: its own copy goes by no link (R29). -/
def inGroup (s : State) (g : Nat) : Bool := g ≥ 0x800 && (s.groupMembers g).contains s.pierId

/-- Signed way from the source of a tree along a dimension: direction and distance. -/
def treeWay (s : State) (src p dim : Nat) : Option (Bool × Nat) :=
  ringWay (extOf s.ext dim) (rtCoord (s.routeOf src) dim) (rtCoord (s.routeOf p) dim)

/-- Whether a group's tree from `src` leaves this pier along a dimension and direction (R285): later dimensions are
still at the source's coordinates, and some member that shares this pier's earlier coordinates lies farther out. -/
def treeBranch (s : State) (src : Nat) (ms : List Nat) (dim : Nat) (up : Bool) : Bool :=
  let a := rtCoord (s.routeOf src)
  let here := ringWay (extOf s.ext dim) (a dim) (s.coord dim)
  ((List.range 3).all fun d => d ≤ dim || s.coord d == a d) &&
  ms.any fun p =>
    !bitOf (s.routeOf p) 49 &&
    ((List.range 3).all fun d => dim ≤ d || rtCoord (s.routeOf p) d == s.coord d) &&
    match s.treeWay src p dim with
    | some (w, n) => w == up && (match here with | none => true | some (w', n') => w' == up && n' < n)
    | none => false

/-- Whether every branch of a group's tree crosses live links, so that the group is delivered by its tree; otherwise
its members get unicast copies (R285). -/
def treeLive (s : State) (src : Nat) (ms : List Nat) : Bool :=
  ms.all fun p => p == src || bitOf (s.routeOf p) 49 || (legHops s.ext s.net.maps src p).isSome

/-- Where a flit goes from here: a list of port, channel and whether it enters a ring; none where there is no route. -/
def outsOf (s : State) (h : Held) : Option (List (Nat × Nat × Bool)) :=
  let f := h.flit
  let t := f.type
  let bit0 := f.tag % 2
  match h.port with
  | some p => some [(p, f.vc, false)]
  | none =>
    if f.dst ≥ 0x800 then
      let ms := s.groupMembers f.dst
      some ((List.range 3).flatMap fun d => [true, false].filterMap fun up =>
        if s.treeBranch f.srcPier ms d up then
          let p := s.pairMember (dirPorts d up) bit0
          some (p, f.vc, match h.src with | some (q, _) => isExpress q || q % 8 / 2 != d | none => true)
        else none)
    else
      let e := s.routeOf f.dst
      if rtReach e == 2 then none
      else
        let v3 := f.vc == 3
        let via := if v3 then rtVia e else f.via
        let second := v3 || f.vc == 1 || f.via == 0xFFF || f.via == s.pierId
        let target := if v3 then (if rtReach e == 1 && via != s.pierId then via else f.dst) else if second then f.dst else f.via
        let vc := if firstVc t == 0 then (if f.via != 0xFFF && second then 1 else 0) else f.vc
        let starts := h.src.isNone || (f.via == s.pierId && f.vc == 0)
        match s.legPort target bit0 starts with
        | none => none
        | some p =>
          let enters := match h.src with
            | none => true
            | some (q, v) => isExpress q || v != vc || q % 8 / 2 != p % 8 / 2
          some [(p, vc, enters && !isExpress p)]

/-! ### Sending (R277, R278) -/

/-- Credits an output must hold for a flit (R277). -/
def creditsNeeded (vc : Nat) (enters : Bool) : Nat := if vc < 2 && enters then 2 else 1

def canSend (s : State) (o : Nat × Nat × Bool) : Bool :=
  let p := s.port o.1
  p.state == .up && p.credits.getD o.2.1 0 ≥ creditsNeeded o.2.1 o.2.2 && p.retry.length < 1024

/-- The fields every flit of a port carries: acknowledgement and credits returned (R277, R278). -/
def stampLink (p : PortSt) (f : Flit) : Flit :=
  let f1 := (f.withHdr 147 136 ((p.rxSeq + 4095) % 4096)).withHdr 135 135 (b2n p.gotAny)
  (List.range 4).foldl (fun f v => f.withHdr (116 + 4 * v) (113 + 4 * v) (min (p.owed.getD v 0) 15)) f1

/-- The port once a flit with its credits and acknowledgement has left. -/
def afterStamp (p : PortSt) : PortSt := { p with owed := p.owed.map fun n => n - min n 15, sinceAck := 0 }

/-- A sequenced flit put on the wire at a port and kept for retry. -/
def transmit (s : State) (p vc : Nat) (f : Flit) : State :=
  let q := s.port p
  let f1 := (stampLink q ((f.withHdr 159 148 q.txSeq).withHdr 134 133 vc)).sealed
  let s1 := s.setPort p { afterStamp q with txSeq := (q.txSeq + 1) % 4096, credits := lset q.credits vc (· - 1), retry := q.retry ++ [f1] }
  { s1 with net := { s1.net with wire := s1.net.wire ++ [(p, f1)] } }.bump (.port p) PT_TX

/-- A link flit put on the wire (R274). -/
def transmitLink (s : State) (p : Nat) (f : Flit) : State :=
  let q := s.port p
  let s1 := s.setPort p (afterStamp q)
  { s1 with net := { s1.net with wire := s1.net.wire ++ [(p, (stampLink q f).sealed)] } }

def sendIdle (s : State) (p : Nat) : State := s.transmitLink p { hdr := FT_IDLE * 2 ^ 129 }

/-- RETRY_REQ carries the sequence expected (R273, R278). -/
def sendRetryReq (s : State) (p : Nat) : State :=
  let q := s.port p
  let f := (stampLink q { hdr := FT_RETRY_REQ * 2 ^ 129 })
  let f1 := ((f.withHdr 147 136 q.rxSeq).withHdr 135 135 1).sealed
  let s1 := s.setPort p (afterStamp q)
  { s1 with net := { s1.net with wire := s1.net.wire ++ [(p, f1)] } }

/-- A buffer slot freed: its credit is owed to the other end (R277). -/
def freeBuffer (s : State) (src : Option (Nat × Nat)) : State :=
  match src with
  | none => s
  | some (p, v) => let q := s.port p; s.setPort p { q with owed := lset q.owed v (· + 1) }

/-- A discarded flit of this pier's own sets LINK for the steps in flight (R283). -/
def discardLink (s : State) (f : Flit) : State := if f.srcPier == s.pierId then s.faultInFlight FB_LINK else s

/-- Whether a held flit may not be injected while an epoch change stops injection (R284). -/
def stoppedFlit (s : State) (h : Held) : Bool := s.net.stopped && h.src.isNone && h.flit.vc < 3

/-- The flits held, in order, each leaving once every output it takes has credit; one that waits holds back later
ones of the same port and channel. -/
def pumpList : List Held → List (Nat × Nat) → State → State
  | [], _, s => s
  | h :: hs, blocked, s =>
    if s.stoppedFlit h then pumpList hs blocked { s with net := { s.net with held := s.net.held ++ [h] } }
    else
      match s.outsOf h with
      | none =>
        let p := match h.src with | some x => x.1 | none => 0
        pumpList hs blocked (((s.bump (.port p) PT_NO_ROUTE).discardLink h.flit).freeBuffer h.src)
      | some outs =>
        let key := outs.map fun o => (o.1, o.2.1)
        if key.all (fun k => !blocked.contains k) && outs.all s.canSend then
          let f := if h.src.isNone then (h.flit.withHdr 88 83 63).withHdr 1 1 (b2n s.net.epoch) else h.flit
          pumpList hs blocked ((outs.foldl (fun t o => t.transmit o.1 o.2.1 f) s).freeBuffer h.src)
        else pumpList hs (blocked ++ key) { s with net := { s.net with held := s.net.held ++ [h] } }

/-- Every held flit that can leave does. -/
def pump (s : State) : State := pumpList s.net.held [] { s with net := { s.net with held := [] } }

def hold (s : State) (h : Held) : State := { s with net := { s.net with held := s.net.held ++ [h] } }

/-- A flit of this pier's own offered for injection. Members of a group attached only by express ports, or all of
them where its tree crosses a down link, get unicast copies (R285). -/
def inject (s : State) (f : Flit) : State :=
  if f.dst ≥ 0x800 then
    let ms := (s.groupMembers f.dst).filter (· != s.pierId)
    let tree := s.treeLive s.pierId ms
    let alone := ms.filter fun p => !tree || bitOf (s.routeOf p) 49
    let s1 := if tree then s.hold { flit := f } else s
    alone.foldl (fun t p => t.hold { flit := (f.withHdr 112 101 p).withHdr 82 71 (rtVia (t.routeOf p)) }) s1
  else s.hold { flit := f.withHdr 82 71 (if firstVc f.type == 0 then rtVia (s.routeOf f.dst) else 0xFFF) }

/-- Header of a flit of this pier's own. -/
def newHdr (s : State) (type dst len addr tag : Nat) (eom : Bool) : Nat :=
  firstVc type * 2 ^ 133 + type * 2 ^ 129 + dst % 4096 * 2 ^ 101 + s.pierId % 2048 * 2 ^ 89 + 63 * 2 ^ 83 + 0xFFF * 2 ^ 71 +
    len * 2 ^ 65 + addr % 2 ^ 48 * 2 ^ 17 + tag % 2 ^ 15 * 4 + b2n s.net.epoch * 2 + b2n eom

/-- A message tag: bit 0 given, the other bits free (R273, R283). -/
def newTag (s : State) (bit0 : Nat) : Nat × State :=
  (bit0 % 2 + 2 * (Config.freeWord s.freeCtr).toNat, { s with freeCtr := s.freeCtr + 1 })

/-- Bytes cut into flits of at most 56 words. -/
def cutFlits : Nat → List (Byte × Bool) → List (List (Byte × Bool))
  | 0, _ => []
  | f + 1, bs => if bs.length ≤ 224 then [bs] else bs.take 224 :: cutFlits f (bs.drop 224)

/-- Words and poison map of a flit's payload bytes. -/
def packPayload (bs : List (Byte × Bool)) : List Nat × Nat :=
  let n := cdiv bs.length 4
  let w (i : Nat) := (bs.drop (4 * i)).take 4
  ((List.range n).map fun i => leNat ((w i).map (·.1)), ((List.range n).map fun i => b2n ((w i).any (·.2)) * 2 ^ i).sum)

/-- The flits of one message of bytes, at rising addresses. -/
def messageFlits (s : State) (type dst addr tag : Nat) (body : FlitBody) (bs : List (Byte × Bool)) : List Flit :=
  let cs := cutFlits (bs.length + 1) bs
  cs.mapIdx fun i c =>
    let p := packPayload c
    { hdr := s.newHdr type dst p.1.length (addr + 224 * i) tag (i + 1 == cs.length), words := p.1, pmap := p.2, tail := c.length % 4, body := body }

/-- A message sent to a pier or group as WRITE flits. -/
def sendBytes (s : State) (dst addr bit0 : Nat) (body : FlitBody) (bs : List (Byte × Bool)) : State :=
  let t := s.newTag bit0
  ((t.2.messageFlits FT_WRITE dst addr t.1 body bs).foldl inject t.2).pump

/-- A write of a stream to another pier or a group: tag bit 0 is bit 0 of core slot plus destination (R283). -/
def sendWrite (s : State) (core pier addr : Nat) (bs : List (Byte × Bool)) : State :=
  s.sendBytes pier addr ((core + pier) % 2) .none bs

/-- A signal sent to an object of another pier or of a group's piers (R274). -/
def sendSignal (s : State) (core pier id amount : Nat) : State :=
  let t := s.newTag ((core + pier) % 2)
  (t.2.inject { hdr := t.2.newHdr FT_SIGNAL pier 2 0 t.1 true, words := [id % 65536, amount % 2 ^ 32] }).pump

/-- A firmware message to a pier (R274). -/
def sendCtrl (s : State) (pier : Nat) (m : CtrlMsg) : State :=
  let t := s.newTag 0
  (t.2.inject { hdr := t.2.newHdr FT_CTRL pier 0 0 t.1 true, body := .ctrl m }).pump

/-- A firmware message to the neighbour at a port, before or beside any route: its destination is 0xFFF. -/
def sendCtrlPort (s : State) (p : Nat) (m : CtrlMsg) : State :=
  (s.hold { port := some p, flit := { hdr := s.newHdr FT_CTRL 0xFFF 0 0 0 true, body := .ctrl m } }).pump

/-- A firmware message to every other pier of a list. -/
def sendCtrlAll (s : State) (ps : List Nat) (m : CtrlMsg) : State := (ps.filter (· != s.pierId)).foldl (fun t p => t.sendCtrl p m) s

/-- A read asked of another pier for an instruction: one READ_REQ for each 4 KiB, answered by writes to the return
address (R274). -/
def sendRead (s : State) (r : SRef) (seq core pier addr n back : Nat) : State :=
  let go (s : State) (i : Nat) : State :=
    let k := min 4096 (n - 4096 * i)
    let ret := s.pierId * 2 ^ 48 + back + 4096 * i
    let t := s.newTag ((core + pier) % 2)
    let s1 : State := { t.2 with net := { t.2.net with reads := t.2.net.reads ++ [{ stream := r, seq := seq, addr := back + 4096 * i, left := k }] } }
    s1.inject { hdr := s1.newHdr FT_READ_REQ pier 3 (addr + 4096 * i) t.1 true, words := [ret % 2 ^ 32, ret / 2 ^ 32, k] }
  ((List.range (cdiv n 4096)).foldl go s).pump

/-- Expect bytes at a local address for an instruction that a page read over the fabric will bring. -/
def expectBytes (s : State) (r : SRef) (seq addr n : Nat) : State :=
  { s with net := { s.net with reads := s.net.reads ++ [{ stream := r, seq := seq, addr := addr, left := n }] } }

/-- Whether the fabric still owes data to an instruction. -/
def readsOpen (s : State) (r : SRef) (seq : Nat) : Bool := s.net.reads.any fun x => x.stream == r && x.seq == seq

end State

end Machine

end Sys2Proof
end

