-- ==== Sys2Proof/Machine/Pages.lean ====
section
/-! DEFINITION. Sequence slots, the page table and the page manager (R169 to R171, R185 to R194). -/

namespace Sys2Proof.Machine

/-- A sequence slot descriptor (R169). -/
structure SeqSlot where
  total : Nat
  first : Nat
  localLen : Nat
  pteBase : Nat
  layers : Nat
  kvh : Nat
  nblk : Nat
  anchored : Bool
  dh : Nat
  g12 : Bool
  gcount : Nat
  gaddr : Nat
  bmap : Nat
  bmapEn : Bool
deriving DecidableEq, Repr

def SeqSlot.ofNat (v : Nat) : SeqSlot :=
  { total := fld v 511 490, first := fld v 489 468, localLen := fld v 467 446, pteBase := fld v 445 425, layers := fld v 424 417 + 1
    kvh := fld v 416 413 + 1, nblk := fld v 412 399 + 1, anchored := bitOf v 398, dh := if bitOf v 397 then 128 else 64
    g12 := bitOf v 396, gcount := min (fld v 395 385) 1024, gaddr := fld v 384 337, bmap := fld v 336 289, bmapEn := bitOf v 288 }

/-- Entries of a slot's page table, T (R170). -/
def SeqSlot.entries (q : SeqSlot) : Nat := q.layers * q.kvh * q.nblk

/-- Page states (R187). -/
inductive PState where
  | resident | dropped | spilled | flight
deriving DecidableEq, Repr

/-- A page-table entry (R187). -/
structure PageEntry where
  state : PState
  inward : Bool
  g12 : Bool
  ddrValid : Bool
  fill : Nat
  frame : Nat
  ddr : Nat
deriving DecidableEq, Repr

def PageEntry.ofNat (v : Nat) : PageEntry :=
  { state := match fld v 63 62 with | 0 => .resident | 1 => .dropped | 2 => .spilled | _ => .flight
    inward := bitOf v 61, g12 := bitOf v 60, ddrValid := bitOf v 59, fill := fld v 58 51, frame := fld v 50 27, ddr := fld v 26 2 }

def PageEntry.toNat (e : PageEntry) : Nat :=
  let st := match e.state with | .resident => 0 | .dropped => 1 | .spilled => 2 | .flight => 3
  st * 2 ^ 62 + b2n e.inward * 2 ^ 61 + b2n e.g12 * 2 ^ 60 + b2n e.ddrValid * 2 ^ 59 + (e.fill % 256) * 2 ^ 51 + (e.frame % 2 ^ 24) * 2 ^ 27 + (e.ddr % 2 ^ 25) * 4

/-- A page never written. -/
def PageEntry.empty : PageEntry := { state := .dropped, inward := false, g12 := false, ddrValid := false, fill := 0, frame := 0, ddr := 0 }

/-- A page window address taken apart (R188). -/
structure PageName where
  slot : Nat
  rel : Nat
  part : Nat
deriving DecidableEq, Repr

def PageName.ofAddr (a : Nat) : PageName := { slot := fld a 30 23, rel := fld a 22 3, part := fld a 2 0 }

/-- Page counters (R196). -/
abbrev PC_MISS : Nat := 0
abbrev PC_DROPS : Nat := 1
abbrev PC_SPILLS : Nat := 2
abbrev PC_CANCEL : Nat := 3
abbrev PC_PREFETCH : Nat := 4
abbrev PC_FULL : Nat := 5
abbrev PC_WAIT : Nat := 6
abbrev PC_SAT : Nat := 7
abbrev PC_UNDER : Nat := 8

/-- First byte and size of a part in its frame, and its row size (R185, R188). -/
def partGeom (g12 : Bool) (part : Nat) : Nat × Nat × Nat :=
  match part with
  | 0 => (0, 0x6000, if g12 then 192 else 128)
  | 1 => (0x6000, 0x6000, if g12 then 192 else 128)
  | 2 => (0xC000, 0x200, 4)
  | 3 => (0xC200, 0x200, 4)
  | _ => (0, 0x10000, 0x10000)

namespace State

def slotAddr (n : Nat) : Nat := SLOT_DESC + 64 * n
def seqSlot (s : State) (n : Nat) : SeqSlot := SeqSlot.ofNat (s.nat (slotAddr n) 64)
def pageAddr (e : Nat) : Nat := PAGE_POOL + 8 * e
def pageEntry (s : State) (e : Nat) : PageEntry := PageEntry.ofNat (s.nat (pageAddr e) 8)
def setPage (s : State) (e : Nat) (p : PageEntry) : State := s.writeNat (pageAddr e) 8 p.toNat

/-- Layer and KV head of a relative index (R187). -/
def layerHead (q : SeqSlot) (slot rel : Nat) : Nat × Nat × Nat := (slot, rel / q.nblk / q.kvh, rel / q.nblk % q.kvh)

/-- Pool entries of a layer-head in ascending block order. -/
def headEntries (q : SeqSlot) (lh : Nat × Nat × Nat) : List Nat := (List.range q.nblk).map fun b => q.pteBase + (lh.2.1 * q.kvh + lh.2.2) * q.nblk + b

def leaseCount (s : State) (lh : Nat × Nat × Nat) : Nat := aget s.pages.leases lh 0

/-- Slots that are open (R169). -/
def openSlots (s : State) : List Nat := (List.range 256).filter fun n => (s.seqSlot n).total != 0

/-- Every pool entry in use, with its slot. -/
def usedEntries (s : State) : List (Nat × Nat) :=
  s.openSlots.flatMap fun n => let q := s.seqSlot n; (List.range q.entries).map fun r => (n, q.pteBase + r)

/-- Frames held by pages, RESIDENT or in flight (R187). -/
def framesUsed (s : State) : List Nat :=
  s.usedEntries.filterMap fun x => let p := s.pageEntry x.2; match p.state with | .resident | .flight => some p.frame | _ => none

/-- Spill locations that stay with a page (R193). -/
def spillsUsed (s : State) : List Nat :=
  s.usedEntries.filterMap fun x => let p := s.pageEntry x.2; if p.ddrValid || p.state == .flight then some p.ddr else none

def frameAddr (f : Nat) : Nat := f * 0x10000
def spillAddr (u : Nat) : Nat := DDR_BASE + u * 0x10000

/-- The lowest free frame of the pool, which is cut at the end of HBM (R186). -/
def freeFrame (s : State) : Option Nat :=
  let v := s.pageDecl
  let used := s.framesUsed
  ((List.range (min (fld v 231 208) (9437184 - fld v 255 232))).map (fld v 255 232 + ·)).find? fun f => !used.contains f

def freeSpill (s : State) : Option Nat :=
  let v := s.spillArea
  let used := s.spillsUsed
  ((List.range ((v.2 - v.1) / 0x10000)).map ((v.1 - DDR_BASE) / 0x10000 + ·)).find? fun u => !used.contains u

/-- Layer-heads in the order of reclaim: those never released first, then by their most recent RELEASE (R192). -/
def reclaimOrder (s : State) : List (Nat × Nat × Nat) :=
  let all := s.openSlots.flatMap fun n => let q := s.seqSlot n; (List.range q.layers).flatMap fun l => (List.range q.kvh).map fun h => (n, l, h)
  all.filter (fun x => !s.pages.released.contains x) ++ s.pages.released.filter all.contains

/-- The page of a layer-head that reclaim would take: the lowest RESIDENT block (R192). -/
def lowestResident (s : State) (lh : Nat × Nat × Nat) : Option Nat :=
  (headEntries (s.seqSlot lh.1) lh).find? fun e => (s.pageEntry e).state == .resident

/-- The first page a rule finds over the layer-heads in order. -/
def reclaimFind (s : State) (ok : SeqSlot → PageEntry → Bool) : Option Nat :=
  s.reclaimOrder.findSome? fun lh =>
    if s.leaseCount lh != 0 then none
    else match s.lowestResident lh with
      | some e => if ok (s.seqSlot lh.1) (s.pageEntry e) then some e else none
      | none => none

/-- One reclaim by the first rule that finds a page (R192); a frame is free at once under rules 1 and 2. -/
def reclaim (s : State) : State :=
  match s.reclaimFind fun q _ => !q.anchored with
  | some e => (s.setPage e { s.pageEntry e with state := .dropped }).bump .page PC_DROPS
  | none =>
    match s.reclaimFind fun q p => q.anchored && p.ddrValid with
    | some e => (s.setPage e { s.pageEntry e with state := .spilled }).bump .page PC_SPILLS
    | none =>
      match s.reclaimFind fun q p => q.anchored && !p.ddrValid with
      | none => s
      | some e =>
        match s.freeSpill with
        | none => s.bump .page PC_FULL
        | some u =>
          let s1 := (s.setPage e { s.pageEntry e with state := .flight, inward := false, ddr := u }).bump .page PC_SPILLS
          { s1 with pages := { s1.pages with flights := s1.pages.flights ++ [{ entry := e, out := true }] } }

/-- A frame for a page: a free one, or one reclaim frees; none where the copy must wait (R192). -/
def takeFrame (s : State) : Option Nat × State :=
  match s.freeFrame with
  | some f => (some f, s)
  | none => let s1 := s.reclaim; (s1.freeFrame, s1)

/-- A 64 KiB frame moved between two addresses in whole stored units (R259). -/
def moveFrame (s : State) (src dst : Nat) : State := s.write dst (s.bytes src 0x10000)

def zeroFrame (s : State) (f : Nat) : State := s.write (frameAddr f) (List.replicate 0x10000 (0#8, false))

/-- A SPILLED page starts coming in; nothing where no frame can be had yet (R193). -/
def startFetch (s : State) (e : Nat) : State :=
  let t := s.takeFrame
  match t.1 with
  | none => t.2
  | some f =>
    let s1 := (t.2.setPage e { t.2.pageEntry e with state := .flight, inward := true, frame := f }).bump .page PC_PREFETCH
    { s1 with pages := { s1.pages with flights := s1.pages.flights ++ [{ entry := e, out := false }] } }

/-- A flight outward that a lease or write meets keeps its frame at landing (R193). -/
def keepFlight (s : State) (e : Nat) : State :=
  { s with pages := { s.pages with flights := s.pages.flights.map fun f => if f.entry == e && f.out then { f with keep := true } else f } }

/-- A page end that names something: an open slot, an entry of its table, a part code (R188). -/
def pageOk (s : State) (n : PageName) : Bool := let q := s.seqSlot n.slot; q.total != 0 && n.rel < q.entries

/-- Bytes of a page part a copy's row addresses, clamped to the part (R188): address in the frame and length. -/
def partRow (g12 : Bool) (part row0 i rowBytes : Nat) : Nat × Nat :=
  let g := partGeom g12 part
  let off := (if part == 4 then i * g.2.2 else (row0 + i) * g.2.2)
  (g.1 + off, min rowBytes (g.2.1 - min g.2.1 off))

/-- A row written at a page copy's other end: here, or on its pier. -/
def putOther (s : State) (p : PagePart) (i : Nat) (bs : List (Byte × Bool)) : State :=
  match p.pier with
  | none => s.writeBy .move (p.other + i * p.stride) bs
  | some q => s.sendWrite 0 q (p.other + i * p.stride) bs

/-- A row read at a page copy's other end, or brought with the request. -/
def takeOther (s : State) (p : PagePart) (i n : Nat) : List (Byte × Bool) :=
  match p.pier with
  | none => s.bytes (p.other + i * p.stride) n
  | some _ => (p.data.getD i []).take n

inductive PageResult where
  | done (s : State)
  | wait (s : State)

/-- A page copy that writes part of a page (R189). The bytes come from the other end. -/
def pageWrite (s : State) (p : PagePart) : PageResult :=
  let n := PageName.ofAddr p.win
  if !s.pageOk n || n.part > 4 then
    .done (s.report { kind := 1, clamp := CL_NULL, widthM1 := 47, bitOff := 0, index := n.slot, supplied := p.win })
  else
    let q := s.seqSlot n.slot
    let e := q.pteBase + n.rel
    let pe := s.pageEntry e
    let put (s : State) (frame : Nat) : State :=
      let pe := s.pageEntry e
      let fill := match n.part with
        | 0 => max pe.fill (min (p.row0 + p.rows) 128)
        | 4 => 128
        | _ => pe.fill
      let s1 := (List.range p.rows).foldl (fun (s : State) i =>
        let a := partRow q.g12 n.part p.row0 i p.rowBytes
        s.write (frameAddr frame + a.1) (s.takeOther p i a.2)) s
      s1.setPage e { pe with state := .resident, inward := false, g12 := q.g12, ddrValid := false, ddr := 0, fill := fill, frame := frame }
    match pe.state with
    | .resident => .done (put s pe.frame)
    | .dropped =>
      let t := s.takeFrame
      match t.1 with
      | some f => .done (put ((t.2.zeroFrame f).setPage e { pe with frame := f, fill := 0 }) f)
      | none => .wait t.2
    | .spilled => .wait (s.startFetch e)
    | .flight => .wait (if pe.inward then s else s.keepFlight e)

/-- Bytes of one page part row as a reader gets them (R189). -/
def pageRow (s : State) (pe : PageEntry) (g12 : Bool) (part row0 i n : Nat) : List (Byte × Bool) :=
  let a := partRow g12 part row0 i n
  match pe.state with
  | .dropped => List.replicate a.2 (0#8, pe.fill != 0)
  | _ => s.bytes (frameAddr pe.frame + a.1) a.2

/-- A page copy that reads part of a page (R189). The bytes go to the other end. -/
def pageRead (s : State) (p : PagePart) : PageResult :=
  let n := PageName.ofAddr p.win
  if !s.pageOk n || n.part > 4 then
    .done ((List.range p.rows).foldl (fun (s : State) i => s.putOther p i (List.replicate p.rowBytes (0#8, false)))
      (s.report { kind := 1, clamp := CL_NULL, widthM1 := 47, bitOff := 0, index := n.slot, supplied := p.win }))
  else
    let q := s.seqSlot n.slot
    let e := q.pteBase + n.rel
    let pe := s.pageEntry e
    match pe.state with
    | .spilled => .wait (s.startFetch e)
    | .flight => if pe.inward then .wait s else
        .done ((List.range p.rows).foldl (fun (t : State) i => t.putOther p i (s.pageRow pe q.g12 n.part p.row0 i p.rowBytes)) s)
    | _ =>
      let s1 := (List.range p.rows).foldl (fun (t : State) i => t.putOther p i (s.pageRow pe q.g12 n.part p.row0 i p.rowBytes)) s
      let miss := pe.state == .dropped && pe.fill != 0 && n.part ≤ 1
      let psn := (List.range p.rows).any fun i => (s.pageRow pe q.g12 n.part p.row0 i p.rowBytes).any (·.2)
      .done ((if miss then s1.bump .page PC_MISS else s1).faultIf psn s.job.decided FB_POISON)

/-- D of a layer-head: its leading blocks in state DROPPED with fill above 0 (R190). -/
def leadingDropped (s : State) (lh : Nat × Nat × Nat) : Nat :=
  ((headEntries (s.seqSlot lh.1) lh).takeWhile fun e => let p := s.pageEntry e; p.state == .dropped && p.fill != 0).length

/-- A lease taken on a layer-head: the count, flights outward kept, and SPILLED pages of an anchored slot coming in
(R190, R193). -/
def takeLease (s : State) (lh : Nat × Nat × Nat) : State :=
  let c := s.leaseCount lh
  let s1 := if c ≥ 65535 then s.bump .page PC_SAT else { s with pages := { s.pages with leases := aset s.pages.leases lh (c + 1) } }
  let es := headEntries (s.seqSlot lh.1) lh
  let s2 := es.foldl (fun (s : State) e => let p := s.pageEntry e; if p.state == .flight && !p.inward then s.keepFlight e else s) s1
  if (s.seqSlot lh.1).anchored then es.foldl (fun (s : State) e => if (s.pageEntry e).state == .spilled then s.startFetch e else s) s2 else s2

/-- One lease released; the layer-head becomes the latest released (R190, R192). -/
def dropLease (s : State) (lh : Nat × Nat × Nat) : State :=
  let c := s.leaseCount lh
  if c == 0 then s.bump .page PC_UNDER
  else { s with pages := { s.pages with leases := aset s.pages.leases lh (c - 1), released := s.pages.released.filter (· != lh) ++ [lh] } }

/-- Every page of a layer-head cleared: DROPPED with fill 0, frame and spill location freed (R193). -/
def clearHead (s : State) (lh : Nat × Nat × Nat) : State :=
  (headEntries (s.seqSlot lh.1) lh).foldl (fun (s : State) e => s.setPage e PageEntry.empty) s

def headInFlight (s : State) (lh : Nat × Nat × Nat) : Bool :=
  let es := headEntries (s.seqSlot lh.1) lh
  s.pages.flights.any fun f => es.contains f.entry

/-- LEASE, RELEASE and CLEAR parts name a layer-head by any page of it (R188). -/
def partHead (s : State) (win : Nat) : Option (Nat × Nat × Nat) :=
  let n := PageName.ofAddr win
  if s.pageOk n then some (layerHead (s.seqSlot n.slot) n.slot n.rel) else none

def nullPage (s : State) (win : Nat) : State :=
  s.report { kind := 1, clamp := CL_NULL, widthM1 := 47, bitOff := 0, index := (PageName.ofAddr win).slot, supplied := win }

def doLease (s : State) (win dst : Nat) : State :=
  match s.partHead win with
  | none => (s.nullPage win).writeBy .move dst (List.replicate 4 (0#8, false))
  | some lh => (s.takeLease lh).writeBy .move dst ((natLE 4 (s.leadingDropped lh)).map fun b => (b, false))

/-- A lease whose dropped-block count goes to an address here or on another pier. -/
def leaseTo (s : State) (pier : Option Nat) (win dst : Nat) : State :=
  match pier with
  | none => s.doLease win dst
  | some q =>
    match s.partHead win with
    | none => (s.nullPage win).sendWrite 0 q dst (List.replicate 4 (0#8, false))
    | some lh => (s.takeLease lh).sendWrite 0 q dst ((natLE 4 (s.leadingDropped lh)).map fun b => (b, false))

def doRelease (s : State) (win : Nat) : State :=
  match s.partHead win with | none => s.nullPage win | some lh => s.dropLease lh

def pageWait (s : State) (w : PageWait) : State := { s with pages := { s.pages with waiting := s.pages.waiting ++ [w] } }

/-- CLEAR: a Null clamp on a leased layer-head; it waits for any flight to land (R193). -/
def doClear (s : State) (win : Nat) : State :=
  match s.partHead win with
  | none => s.nullPage win
  | some lh =>
    if s.leaseCount lh != 0 then s.nullPage win
    else if s.headInFlight lh then s.pageWait (.clear win)
    else s.clearHead lh

def runPage (s : State) : PageWait → State
  | .write p => match s.pageWrite p with | .done t => t | .wait t => t.pageWait (.write p)
  | .read p => match s.pageRead p with | .done t => t | .wait t => t.pageWait (.read p)
  | .clear w => s.doClear w

/-- The actions that waited, tried again in their order (R193). -/
def retryPages (s : State) : State :=
  s.pages.waiting.foldl runPage { s with pages := { s.pages with waiting := [] } }

/-- An outward copy lands (R193). -/
def spillLands (s : State) (e : Nat) : State :=
  match s.pages.flights.find? fun f => f.entry == e && f.out with
  | none => s
  | some f =>
    let p := s.pageEntry e
    let s1 := s.moveFrame (frameAddr p.frame) (spillAddr p.ddr)
    let s2 := { s1 with pages := { s1.pages with flights := s1.pages.flights.filter (·.entry != e) } }
    let s3 := if f.keep then (s2.setPage e { p with state := .resident, ddrValid := true }).bump .page PC_CANCEL
      else s2.setPage e { p with state := .spilled, ddrValid := true, frame := 0 }
    s3.retryPages

/-- An inward copy lands (R193). -/
def fetchLands (s : State) (e : Nat) : State :=
  match s.pages.flights.find? fun f => f.entry == e && !f.out with
  | none => s
  | some _ =>
    let p := s.pageEntry e
    let s1 := s.moveFrame (spillAddr p.ddr) (frameAddr p.frame)
    let s2 := { s1 with pages := { s1.pages with flights := s1.pages.flights.filter (·.entry != e) } }
    (s2.setPage e { p with state := .resident, inward := false, ddrValid := true }).retryPages

end State

end Sys2Proof.Machine
end

