-- ==== Sys2Proof/Machine/Slots.lean ====
section
/-! DEFINITION. Sequence slots as the host writes them: the run of page-table entries reserved, and the values taking
effect (R169, R170). -/

namespace Sys2Proof.Machine

abbrev POOL_ENTRIES : Nat := 2097152

namespace State

/-- Ranges of the page-table pool in use or reserved: first entry and entries (R170). -/
def poolRanges (s : State) : List (Nat × Nat) :=
  (s.openSlots.map fun n => ((s.seqSlot n).pteBase, (s.seqSlot n).entries)) ++ s.host.slotWrites.filterMap (·.run)

/-- The lowest run of n entries that meets none of the ranges: it starts at 0 or at the end of one of them. -/
def freeRun (s : State) (n : Nat) : Option Nat :=
  let rs := s.poolRanges
  let ok (a : Nat) : Bool := a + n ≤ POOL_ENTRIES && rs.all fun r => a + n ≤ r.1 || r.1 + r.2 ≤ a
  (0 :: rs.map fun r => r.1 + r.2).foldl (fun m a => if ok a then (match m with | some b => some (min a b) | none => some a) else m) none

/-- Every page and lease of a slot given up, as CLEAR does (R170, R193). -/
def emptySlot (s : State) (n : Nat) : State :=
  let q := s.seqSlot n
  let s1 := (List.range q.entries).foldl (fun (t : State) r => t.setPage (q.pteBase + r) PageEntry.empty) s
  { s1 with pages := { s1.pages with leases := s1.pages.leases.filter (·.1.1 != n), released := s1.pages.released.filter (·.1 != n) } }

/-- A slot write takes effect: the old range is released, and a new one starts with every entry DROPPED and empty. -/
def applySlot (s : State) (w : SlotWrite) : State :=
  let old := s.seqSlot w.slot
  let s1 : State := { s with host := { s.host with slotWrites := s.host.slotWrites.filter (·.slot != w.slot) } }
  if fld w.desc 511 490 == 0 then (if old.total == 0 then s1 else s1.emptySlot w.slot).writeNat (slotAddr w.slot) 64 w.desc
  else match w.run with
    | some r =>
      let s2 := if old.total == 0 then s1 else s1.emptySlot w.slot
      let s3 := (List.range r.2).foldl (fun (t : State) i => t.setPage (r.1 + i) PageEntry.empty) s2
      s3.writeNat (slotAddr w.slot) 64 (setFld w.desc 445 425 r.1)
    | none => s1.writeNat (slotAddr w.slot) 64 (setFld w.desc 445 425 old.pteBase)

/-- Whether a page of a slot is being moved. -/
def slotInFlight (s : State) (n : Nat) : Bool :=
  let q := s.seqSlot n
  q.total != 0 && s.pages.flights.any fun f => q.pteBase ≤ f.entry && f.entry < q.pteBase + q.entries

/-- Slot writes whose moment has come take effect; one that gives pages up waits for flights to land (R193). -/
def settleSlots (s : State) : State :=
  (s.host.slotWrites.filter (·.due)).foldl (fun t w =>
    if (w.run.isSome || fld w.desc 511 490 == 0) && t.slotInFlight w.slot then t else t.applySlot w) s

/-- A step boundary: every slot write accepted before it takes effect (R169). -/
def slotBoundary (s : State) : State :=
  let ws := s.host.slotWrites.map fun w => { w with due := true }
  { s with host := { s.host with slotWrites := ws } }.settleSlots

end State

end Sys2Proof.Machine
end

