-- ==== Sys2Proof/Machine/Elem.lean ====
section
/-! DEFINITION. Elementary functions, correctly rounded (R108, R177, R202, R223, R244, R330). Each is enclosed
between two rationals in fixed point with `p` fraction bits; the precision is raised until both ends round to one
FP32 value. The functions are transcendental at every argument that is not a special case, so the two ends agree
at some precision; the list of precisions is finite (DEDUCED, assumption 11). -/

namespace Sys2Proof.Machine

/-- An enclosure: every value from lo * 2^-p to hi * 2^-p, for the precision p it was made with. -/
structure Iv where
  lo : Int
  hi : Int
deriving DecidableEq, Repr

/-- An approximation `x` that is within `err` units of the value enclosed. -/
def Iv.around (x : Int) (err : Nat) : Iv := ⟨x - err, x + err⟩

/-- The exact value of x * 2^-p. -/
def fixExt (p : Nat) (x : Int) : Ext := .fin (x < 0) x.natAbs (2 ^ p)

/-- Sum over the terms of a series `t, t*next, …`, `k` terms; `next i t` is the following term. -/
def series (next : Nat → Int → Int) : Nat → Nat → Int → Int
  | 0, _, _ => 0
  | k + 1, i, t => t + series next k (i + 1) (next i t)

/-- atanh(a/b) * 2^p for 0 ≤ a/b ≤ 1/3, truncated. -/
def atanhFix (p a b : Nat) : Int :=
  let z : Int := ((a * 2 ^ p / b : Nat) : Int)
  let z2 : Int := ((a * a * 2 ^ p / (b * b) : Nat) : Int)
  -- the power z^(2i+1) is carried as the term; its share of the sum is the term over 2i+1
  let rec go : Nat → Nat → Int → Int
    | 0, _, _ => 0
    | k + 1, i, w => w / (2 * i + 1 : Nat) + go k (i + 1) (w * z2 / (2 ^ p : Nat))
  go (p / 3 + 4) 0 z

/-- ln 2 in fixed point. -/
def ln2Fix (p : Nat) : Int := 2 * atanhFix p 1 3

/-- arctan(1/b) * 2^p. -/
def atanInvFix (p b : Nat) : Int :=
  let rec go : Nat → Nat → Int → Int
    | 0, _, _ => 0
    | k + 1, i, w => (if i % 2 == 0 then w / (2 * i + 1 : Nat) else -(w / (2 * i + 1 : Nat))) + go k (i + 1) (w / ((b * b : Nat) : Int))
  go (p / 2 + 4) 0 (((2 ^ p / b : Nat)) : Int)

/-- π in fixed point, by Machin's formula. -/
def piFix (p : Nat) : Int := 16 * atanInvFix p 5 - 4 * atanInvFix p 239

/-- e^r * 2^p for a fixed-point r of magnitude below 1. -/
def expTaylor (p : Nat) (r : Int) : Int :=
  series (fun i t => t * r / (((2 ^ p : Nat) : Int) * ((i + 1 : Nat) : Int))) (p / 4 + 20) 0 (2 ^ p : Nat)

/-- A signed rational in fixed point, rounded down. -/
def toFix (p : Nat) (s : Bool) (n d : Nat) : Int :=
  let q : Int := ((n * 2 ^ p / d : Nat) : Int)
  if s then -q else q

/-- e^x for a fixed-point x with `p` fraction bits and |x| < 2^12: enclosed as m * 2^(k-p), with the pair (m, k). -/
def expFix (p : Nat) (x : Int) : Iv × Int :=
  let l := ln2Fix p
  let k := x / l
  (Iv.around (expTaylor p (x - k * l)) (2 ^ 16 + p), k)

/-- Shift an enclosure by a power of two, outward. -/
def Iv.shift (i : Iv) (k : Int) : Iv :=
  if k ≥ 0 then ⟨i.lo * 2 ^ k.toNat, i.hi * 2 ^ k.toNat⟩ else ⟨i.lo / 2 ^ (-k).toNat, i.hi / 2 ^ (-k).toNat + 1⟩

/-- ln(n/d) * 2^p. -/
def lnFix (p n d : Nat) : Iv :=
  let e := log2Q n d
  let q := scaleQ n d e
  Iv.around (2 * atanhFix p (q.1 - q.2) (q.1 + q.2) + e * ln2Fix p) (2 ^ 16 + p)

/-- Product and quotient of enclosures of non-negative values, in fixed point. -/
def Iv.mul (p : Nat) (a b : Iv) : Iv := ⟨a.lo * b.lo / 2 ^ p, a.hi * b.hi / 2 ^ p + 1⟩
def Iv.div (p : Nat) (a b : Iv) : Iv := ⟨a.lo * 2 ^ p / b.hi, a.hi * 2 ^ p / b.lo + 1⟩

/-- The first precision at which the two ends of the enclosure round alike. -/
def refine (f : Nat → Ext × Ext) : List Nat → F32
  | [] => nan32
  | [p] => rne32 (f p).1
  | p :: ps =>
    let q := f p
    let a := rne32 q.1
    if a == rne32 q.2 then a else refine f ps

/-- The precisions tried. -/
def precisions : List Nat := [256, 512, 1024, 2048]

/-- Both ends of an enclosure as exact values scaled by 2^k. -/
def ivExt (p : Nat) (i : Iv) (k : Int) : Ext × Ext :=
  ((fixExt p i.lo).mul (Ext.dyadic false 1 k), (fixExt p i.hi).mul (Ext.dyadic false 1 k))

/-- Correctly rounded e^x (R177: exp(−Inf) is +0). -/
def fexp (x : F32) : F32 :=
  match f32 x with
  | .nan => nan32
  | .inf s => if s then 0#32 else x
  | .fin s n d =>
    if n == 0 then fOne
    else if n ≥ 200 * d then (if s then 0#32 else pack32 false 0x7F800000)
    else refine (fun p => let e := expFix p (toFix p s n d); ivExt p e.1 e.2) precisions

/-- Correctly rounded ln x; ln(+0) is −Inf and ln of a negative value NaN. -/
def fln (x : F32) : F32 :=
  match f32 x with
  | .nan => nan32
  | .inf s => if s then nan32 else x
  | .fin s n d =>
    if n == 0 then pack32 true 0x7F800000
    else if s then nan32
    else if n == d then 0#32
    else refine (fun p => ivExt p (lnFix p n d) 0) precisions

/-- The logistic function enclosed: 1/(1+e^-x), in fixed point. -/
def sigmaFix (p : Nat) (s : Bool) (n d : Nat) : Iv :=
  let e := expFix p (toFix p (!s) n d)
  let w := e.1.shift e.2
  Iv.div p ⟨2 ^ p, 2 ^ p⟩ ⟨w.lo + 2 ^ p, w.hi + 2 ^ p⟩

/-- A result that is never −0 (R108: every zero result is +0). -/
def noNegZero (x : F32) : F32 := if isZero32 x then 0#32 else x

/-- Correctly rounded σ(x). -/
def fsigmoid (x : F32) : F32 :=
  match f32 x with
  | .nan => nan32
  | .inf s => if s then 0#32 else fOne
  | .fin s n d =>
    if n ≥ 200 * d then (if s then 0#32 else fOne)
    else refine (fun p => ivExt p (sigmaFix p s n d) 0) precisions

/-- tanh enclosed, in fixed point: 2σ(2x) − 1. -/
def tanhFix (p : Nat) (s : Bool) (n d : Nat) : Iv :=
  let w := sigmaFix p s (2 * n) d
  ⟨2 * w.lo - 2 ^ p, 2 * w.hi - 2 ^ p⟩

/-- Correctly rounded tanh(x). Below 2^-60 the result is the value next below x in magnitude, which rounds to x. -/
def ftanh (x : F32) : F32 :=
  match f32 x with
  | .nan => nan32
  | .inf s => if s then fneg fOne else fOne
  | .fin s n d =>
    if n == 0 then 0#32
    else if n ≥ 100 * d then (if s then fneg fOne else fOne)
    else if n * 2 ^ 60 ≤ d then x
    else refine (fun p => ivExt p (tanhFix p s n d) 0) precisions

/-- Φ(x), the standard normal distribution function, in fixed point: 1/2 plus or minus φ(x) times the series
x + x^3/3 + x^5/15 + …  -/
def phiDist (p : Nat) (s : Bool) (n d : Nat) : Iv :=
  let x : Int := toFix p false n d
  let x2 : Int := ((n * n * 2 ^ p / (d * d) : Nat) : Int)
  let sum := series (fun i t => t * x2 / (((2 ^ p : Nat) : Int) * ((2 * i + 3 : Nat) : Int))) (p + 64) 0 x
  let e := expFix p (-(x2 / 2))
  let dens := Iv.div p (e.1.shift e.2) (let r : Int := ((isqrt ((2 * piFix p).toNat * 2 ^ p) : Nat) : Int); ⟨r - 2 ^ 16, r + 2 ^ 16⟩)
  let t := Iv.mul p dens (Iv.around sum (2 ^ 20 + p))
  let half : Int := 2 ^ (p - 1)
  if s then ⟨half - t.hi, half - t.lo⟩ else ⟨half + t.lo, half + t.hi⟩

/-- The standard normal density, in fixed point. -/
def phiDens (p : Nat) (n d : Nat) : Iv :=
  let x2 : Int := ((n * n * 2 ^ p / (d * d) : Nat) : Int)
  let e := expFix p (-(x2 / 2))
  Iv.div p (e.1.shift e.2) (let r : Int := ((isqrt ((2 * piFix p).toNat * 2 ^ p) : Nat) : Int); ⟨r - 2 ^ 16, r + 2 ^ 16⟩)

/-- An enclosure of any sign times the exact value (-1)^s * n/d. -/
def ivScale (p : Nat) (i : Iv) (s : Bool) (n d : Nat) : Ext × Ext :=
  ((fixExt p i.lo).mul (.fin s n d), (fixExt p i.hi).mul (.fin s n d))

/-- Precisions for the functions whose terms grow before they shrink. -/
def wide : List Nat := [1024, 2048, 4096]

/-- Correctly rounded square root of a positive rational enclosure: floor of the root at precision p. -/
def sqrtFix (p : Nat) (i : Iv) : Iv :=
  ⟨((isqrt (i.lo.toNat * 2 ^ p) : Nat) : Int), ((isqrt (i.hi.toNat * 2 ^ p) : Nat) : Int) + 1⟩

/-- cos(2π·u) for 0 ≤ u = n/d < 1, in fixed point, by the Taylor series of the angle. -/
def cosTurnFix (p n d : Nat) : Iv :=
  let a := 2 * piFix p * ((n : Nat) : Int) / ((d : Nat) : Int)
  let a2 := a * a / ((2 ^ p : Nat) : Int)
  Iv.around (series (fun i t => -(t * a2 / (((2 ^ p : Nat) : Int) * (((2 * i + 1) * (2 * i + 2) : Nat) : Int)))) (p / 4 + 40) 0 (2 ^ p : Nat)) (2 ^ 30 + p)

/-- a^t for 0 ≤ a < 1 given as n/d: exact for a small t, enclosed through e^(t ln a) otherwise. -/
def powEnclose (n d t : Nat) (p : Nat) : Ext × Ext :=
  if n == 0 then (if t == 0 then (.one, .one) else (.zero, .zero))
  else if t ≤ 32 then (.fin false (n ^ t) (d ^ t), .fin false (n ^ t) (d ^ t))
  else
    let l := lnFix (p + 80) n d
    -- t * ln a, at 80 more bits than p so that the product keeps p good bits
    let lo := l.lo * ((t : Nat) : Int) / 2 ^ 80
    let hi := l.hi * ((t : Nat) : Int) / 2 ^ 80 + 1
    if hi < -(200 * 2 ^ p : Int) then (.zero, .dyadic false 1 (-200))
    else
      let a := expFix p lo
      let b := expFix p hi
      ((ivExt p a.1 a.2).1, (ivExt p b.1 b.2).2)

/-- fp32_rne(1 − a^t), one rounding (R237). -/
def biasCorr (a : F32) (t : Nat) : F32 :=
  match f32 a with
  | .fin _ n d => refine (fun p => let q := powEnclose n d t p; (Ext.one.sub q.2, Ext.one.sub q.1)) precisions
  | _ => nan32

/-- Correctly rounded x^(-1/4) for a positive finite x (R244). -/
def finvRoot4 (x : F32) : F32 :=
  match f32 x with
  | .fin false n d =>
    if n == 0 then pack32 false 0x7F800000
    else refine (fun p => let r := iroot4 (d * 2 ^ (4 * p) / n); (fixExt p r, fixExt p (r + 1))) [200, 400]
  | .inf false => 0#32
  | _ => nan32

/-- Value of one normal draw of INIT: a * sqrt(−2 ln u1) * cos(2π u2), one rounding of the whole (R330). -/
def normalDraw (a : F32) (u1n u1d u2n u2d : Nat) : F32 :=
  match f32 a with
  | .fin s n d => noNegZero (refine (fun p =>
      let l := lnFix p u1n u1d
      let r := sqrtFix p ⟨-2 * l.hi, -2 * l.lo⟩
      let c := cosTurnFix p u2n u2d
      let lo := min (r.lo * c.lo) (r.hi * c.lo) / 2 ^ p
      let hi := max (r.lo * c.hi) (r.hi * c.hi) / 2 ^ p + 1
      let q := ivScale p ⟨lo, hi⟩ s n d
      if s then (q.2, q.1) else q) precisions)
  | _ => nan32

end Sys2Proof.Machine
end

