-- ==== Sys2Proof/Machine/Func.lean ====
section
/-! DEFINITION. The functions of the drain and their derivatives (R108): exact real values rounded once by RNE,
limits at the infinities, +0 for every zero result, NONE the identity. -/

namespace Sys2Proof.Machine

/-- Function codes (R108). -/
inductive Func where
  | none | relu | relu2 | gelu | geluTanh | silu | sigmoid | tanh
deriving DecidableEq, Repr

/-- The function of a 5-bit code; a reserved code takes the default NONE (R107). -/
def Func.ofCode : Nat → Func
  | 1 => .relu | 2 => .relu2 | 3 => .gelu | 4 => .geluTanh | 5 => .silu | 6 => .sigmoid | 7 => .tanh | _ => .none

/-- Product of enclosures of any sign. -/
def Iv.gmul (p : Nat) (a b : Iv) : Iv :=
  let q := [a.lo * b.lo, a.lo * b.hi, a.hi * b.lo, a.hi * b.hi]
  ⟨q.foldl min (a.lo * b.lo) / 2 ^ p, q.foldl max (a.lo * b.lo) / 2 ^ p + 1⟩

def Iv.add (a b : Iv) : Iv := ⟨a.lo + b.lo, a.hi + b.hi⟩
def Iv.sub (a b : Iv) : Iv := ⟨a.lo - b.hi, a.hi - b.lo⟩
def Iv.one (p : Nat) : Iv := ⟨2 ^ p, 2 ^ p⟩

/-- σ of an enclosed argument. -/
def sigmaIv (p : Nat) (x : Iv) : Iv :=
  let lo := sigmaFix p (x.lo < 0) x.lo.natAbs (2 ^ p)
  let hi := sigmaFix p (x.hi < 0) x.hi.natAbs (2 ^ p)
  ⟨lo.lo, hi.hi⟩

/-- (-1)^s n/d in fixed point. -/
def pointIv (p : Nat) (s : Bool) (n d : Nat) : Iv := Iv.around (toFix p s n d) 1

/-- 2·√(2/π), in fixed point. -/
def geluScale (p : Nat) : Iv :=
  let r := isqrt (2 ^ (3 * p + 3) / (piFix p).toNat)
  Iv.around ((r : Nat) : Int) (2 ^ 20)

/-- The argument 2·√(2/π)·(z + 0.044715 z³) of the logistic form of GELU_TANH. -/
def geluArg (p : Nat) (s : Bool) (n d : Nat) : Iv :=
  Iv.gmul p (geluScale p) (pointIv p s (n * (1000000 * d * d + 44715 * n * n)) (1000000 * d * d * d))

/-- Argument magnitude past which every function of the table has reached, in FP32, its limit or its argument. -/
def farArg (n d : Nat) : Bool := n ≥ 64 * d

/-- f(z) of the drain (R108). -/
def drainF (f : Func) (z : F32) : F32 :=
  match f32 z with
  | .nan => if f == .none then z else nan32
  | .inf s =>
    match f with
    | .none => z
    | .sigmoid => if s then 0#32 else fOne
    | .tanh => if s then fneg fOne else fOne
    | _ => if s then 0#32 else z
  | .fin s n d =>
    match f with
    | .none => z
    | .relu => if s then 0#32 else z
    | .relu2 => if s then 0#32 else noNegZero (fmul z z)
    | .sigmoid => fsigmoid z
    | .tanh => noNegZero (ftanh z)
    | .gelu =>
      if n == 0 then 0#32
      else if farArg n d then (if s then 0#32 else z)
      else noNegZero (refine (fun p => let q := ivScale p (phiDist p s n d) s n d; if s then (q.2, q.1) else q) wide)
    | .geluTanh =>
      if n == 0 then 0#32
      else if farArg n d then (if s then 0#32 else z)
      else noNegZero (refine (fun p => let q := ivScale p (sigmaIv p (geluArg p s n d)) s n d; if s then (q.2, q.1) else q) wide)
    | .silu =>
      if n == 0 then 0#32
      else if n ≥ 300 * d then (if s then 0#32 else z)
      else noNegZero (refine (fun p => let q := ivScale p (sigmaFix p s n d) s n d; if s then (q.2, q.1) else q) wide)

/-- f′(z) of the drain (R108). -/
def drainF' (f : Func) (z : F32) : F32 :=
  match f32 z with
  | .nan => nan32
  | .inf s =>
    match f with
    | .none => fOne
    | .relu2 => if s then 0#32 else z
    | .sigmoid => 0#32
    | .tanh => 0#32
    | _ => if s then 0#32 else fOne
  | .fin s n d =>
    match f with
    | .none => fOne
    | .relu => if s || n == 0 then 0#32 else fOne
    | .relu2 => if s then 0#32 else noNegZero (fadd z z)
    | .sigmoid =>
      if n ≥ 300 * d then 0#32
      else noNegZero (refine (fun p => ivExt p (let g := sigmaFix p s n d; g.gmul p ((Iv.one p).sub g)) 0) wide)
    | .tanh =>
      if n ≥ 300 * d then 0#32
      else noNegZero (refine (fun p => ivExt p (let g := sigmaFix p s (2 * n) d; let h := g.gmul p ((Iv.one p).sub g); ⟨4 * h.lo, 4 * h.hi⟩) 0) wide)
    | .gelu =>
      if farArg n d then (if s then 0#32 else fOne)
      else noNegZero (refine (fun p => ivExt p ((phiDist p s n d).add ((pointIv p s n d).gmul p (phiDens p n d))) 0) wide)
    | .geluTanh =>
      if farArg n d then (if s then 0#32 else fOne)
      else noNegZero (refine (fun p =>
        let g := sigmaIv p (geluArg p s n d)
        let dw := Iv.gmul p (geluScale p) (pointIv p false (1000000 * d * d + 3 * 44715 * n * n) (1000000 * d * d))
        ivExt p (g.add (((pointIv p s n d).gmul p (g.gmul p ((Iv.one p).sub g))).gmul p dw)) 0) wide)
    | .silu =>
      if n ≥ 300 * d then (if s then 0#32 else fOne)
      else noNegZero (refine (fun p =>
        let g := sigmaFix p s n d
        ivExt p (g.add ((pointIv p s n d).gmul p (g.gmul p ((Iv.one p).sub g)))) 0) wide)

end Sys2Proof.Machine
end

