-- ==== Sys2Proof/Machine/Drain.lean ====
section
/-! DEFINITION. The drain (R105 to R111) and the stored form of a conversion's result: elements, scales, side values
and zero bitmap (R38, R41, R77, R103). -/

namespace Sys2Proof.Machine

/-- The format a site converts to, after the clamps of R86. -/
def siteFmt (site : Site) (f : Fmt) : Fmt :=
  let f1 := if f.elem == .b1 then { f with outlier := false } else f
  match site with
  | .drain => if f1.kind == .e4m3t then { f1 with kind := .e4m3 } else f1
  | .atrest => f1
  | .wire =>
    let e := if f.elem == .e4m3 || f.elem == .e5m2 || f.elem == .p4 || f.elem == .g12 || f.elem == .bf16 || f.elem == .fp32
      then f.elem else .e5m2
    { f1 with elem := e, rot := 0, smooth := false, outlier := false,
              kind := if e == .g12 || e == .bf16 || e == .fp32 then .none else f.kind }
  | .link => { f1 with kind := .none, rot := 0, smooth := false, outlier := false }
  | .camber => { f1 with outlier := false }

/-- The control word as a site takes it after the clamps of R86. -/
def siteCtl (site : Site) (c : Ctl) : Ctl :=
  match site with
  | .drain => { c with dynamic := false }
  | .camber => { c with mulDir := true, dynamic := false }
  | .wire | .link => { c with dynamic := false }
  | .atrest => c

namespace State

/-- Smoothing factors of columns `c` to `c + n − 1`, with poison, and the number that read as 1.0 for want of a valid
value (R73). -/
def smoothVec (s : State) (o : OpDesc) (c n : Nat) : List (F32 × Bool) := (List.range n).map fun i => s.f32At (o.smoothAddr + 4 * (c + i))

def smoothInvalid (fs : List (F32 × Bool)) : Nat := (fs.filter fun f => !posNormal32 f.1).length

/-- A conversion to the tensor of a destination descriptor: rows from `r0`, columns from `c0`, STATIC outlier list. -/
def convTo (s : State) (site : Site) (o : OpDesc) (f : Fmt) (ctl : Ctl) (rand : RandSite) (r0 c0 n : Nat) : Conv :=
  let og := if f.outlier then
      (s.outliers o).map fun g => (g.1.filter fun c => c0 ≤ c && c < c0 + n, g.2)
    else []
  { elem := f.elem, kind := f.kind, block := f.block, rot := f.rot, ctl := ctl, rand := rand
    raw32 := site == .drain || site == .camber
    smooth := if f.smooth then some (s.smoothVec o c0 n) else none
    outl := og.map (·.1)
    outlPoison := if site == .drain then ((og.zipIdx).filter (·.1.2)).flatMap fun g => (List.range 128).map (128 * g.2 + ·) else []
    col0 := c0, row0 := r0, inner := o.inner }

/-- One converted row written: elements, block scales from the block of its first column, and side values. The number
of stored words poisoned by the site comes back. -/
def writeRow (s : State) (g : Agent) (o : OpDesc) (f : Fmt) (r c0 : Nat) (x : RowOut) : State × Nat :=
  let a := o.base + r * o.stride
  let w := s.writeElems g f.elem a c0 o.inner x.cells
  let s1 := if f.kind == .none then w.1 else w.1.writeScales g (o.bscale + r * o.blocks + c0 / f.block) x.scales
  let s2 := if o.sideEn && f.outlier then
      x.side.zipIdx.foldl (fun (t : State × Nat) sg =>
        let y := t.1.writeElems g .bf16 (sideSlotAddr o r sg.2 0) 0 8 sg.1
        (y.1, t.2 + y.2)) (s1, 0)
    else (s1, 0)
  (s2.1, w.2 + s2.2)

/-- Rows converted and written in order; `rows` pairs each stored row with its result. -/
def writeRows (s : State) (g : Agent) (o : OpDesc) (f : Fmt) (c0 : Nat) (rows : List (Nat × RowOut)) : State × Nat :=
  rows.foldl (fun (t : State × Nat) x => let y := t.1.writeRow g o f x.1 c0 x.2; (y.1, t.2 + y.2)) (s, 0)

/-- Whether anything in a result is written poisoned. -/
def rowsPoisoned (rows : List RowOut) : Bool :=
  rows.any fun r => r.cells.any (fun c => c.poison || c.own) || r.scales.any (·.2) || r.side.any (·.any fun c => c.poison || c.own)

/-! ### Zero bitmap written (R103) -/

/-- Whether a result element reads as zero under R93. -/
def cellZero (f : Fmt) (r : RowOut) (c0 c : Nat) : Bool :=
  let x := r.cells.getD (c - c0) { code := 0 }
  let sc := if f.kind == .none then Ext.one else f.kind.value (r.scales.getD (c / f.block - c0 / f.block) (0, false)).1
  !sc.isNan && (sc.isZero || (f.elem.decode x.code).isZero)

/-- The bits of the granules that rows [r0, r1) and columns [c0, c1) meet: 1 exactly where a granule is written
completely, reads as zero and holds no poison; 0 otherwise. -/
def writeZmap (s : State) (g : Agent) (zaddr : Nat) (o : OpDesc) (f : Fmt) (r0 c0 c1 : Nat) (rows : List (Nat × RowOut)) : State :=
  if rows.isEmpty || c1 ≤ c0 then s
  else
    let rEnd := r0 + rows.length
    (List.range (cdiv rEnd 16 - r0 / 16)).foldl (fun s gr =>
      (List.range (cdiv c1 64 - c0 / 64)).foldl (fun (s : State) gc =>
        let gi := r0 / 16 + gr
        let ci := c0 / 64 + gc
        let rs := (List.range (min 16 (o.rows - 16 * gi))).map (16 * gi + ·)
        let cs := (List.range (min 64 (o.inner - 64 * ci))).map (64 * ci + ·)
        let whole := rs.all (fun r => r0 ≤ r && r < rEnd) && cs.all (fun c => c0 ≤ c && c < c1)
        let zero := whole && rs.all fun r =>
          match rows.find? (·.1 == r) with
          | none => false
          | some x => cs.all (fun c => cellZero f x.2 c0 c && !(x.2.cells.getD (c - c0) { code := 0 }).poison)
        let idx := gi * cdiv o.inner 64 + ci
        let a := zaddr + idx / 8
        let b := s.byte a
        s.writeBy g a [(BitVec.ofNat 8 (setFld b.1.toNat (idx % 8) (idx % 8) (b2n zero)), b.2)]) s) s

/-! ### The drain of one slot (R105) -/

/-- The values of one output element after steps 0 to 3, with its poison and the pre-activation value. -/
def drainElem (s : State) (d : DrainDesc) (aux : OpDesc) (r c : Nat) (a : Acc) : (F32 × Bool) × (F32 × Bool) :=
  let y0 := fmul (resolve (a.s, a.c)) d.alpha
  let cs := if d.cscaleEn then s.f32At (d.cscaleAddr + 4 * c) else (fOne, false)
  let y1 := if d.cscaleEn then fmul y0 cs.1 else y0
  let bi := if d.biasEn then s.f32At (d.biasAddr + 4 * c) else (0#32, false)
  let y2 := if d.biasEn then fadd y1 bi.1 else y1
  let p := a.poison || cs.2 || bi.2
  let fn := Func.ofCode d.func
  if d.fmode == 1 then
    let z := s.valueAt aux r c
    ((fmul y2 (drainF' fn (rne32 z.1)), p || z.2), (y2, p))
  else ((drainF fn y2, p), (y2, p))

/-- Hook values in ascending row and column order: the program at vprog_addr has no encoding, so what it returns is
free (R110). -/
def hookRows (s : State) (rows : List (List (F32 × Bool))) : List (List (F32 × Bool)) × State :=
  rows.foldl (fun (t : List (List (F32 × Bool)) × State) row =>
    let x := row.foldl (fun (u : List (F32 × Bool) × State) v =>
      let k := u.2.fresh
      (u.1 ++ [(Config.hookValue k.1 v.1, v.2)], k.2)) ([], t.2)
    (t.1 ++ [x.1], x.2)) ([], s)

/-- Rows and columns of a slot that lie inside the output tensor. -/
def slotSpan (o : OpDesc) (k : SlotSt) : (Nat × Nat) × (Nat × Nat) :=
  let r0 := (max k.m 0).toNat
  let r1 := min (k.m + k.mLen).toNat o.rows
  let c0 := (max k.n 0).toNat
  let c1 := min (k.n + k.nLen).toNat o.inner
  ((r0, r1 - r0), (c0, c1 - c0))

/-- The accumulators of the rows and columns inside the output. -/
def slotInside (o : OpDesc) (k : SlotSt) : List (List Acc) :=
  let p := slotSpan o k
  let dr := (p.1.1 - k.m).toNat
  let dc := (p.2.1 - k.n).toNat
  ((k.acc.drop dr).take p.1.2).map fun l => (l.drop dc).take p.2.2

/-- Byte ranges the drain of a slot reads and writes (R89): output, bias, column scale, pre-activation, bitmap. -/
def drainFootprint (d : DrainDesc) (o aux : OpDesc) (k : SlotSt) : List (Nat × Nat) × List (Nat × Nat) :=
  let p := slotSpan o k
  let rows := (List.range p.1.2).map (p.1.1 + ·)
  let tensor (t : OpDesc) : List (Nat × Nat) :=
    rows.flatMap fun r =>
      let b := t.elem.bits
      let lo := b * p.2.1 / 8
      [(t.base + r * t.stride + lo, cdiv (b * (p.2.1 + p.2.2)) 8 - lo)] ++
      (match t.fmt with
       | some f => if f.kind == .none then [] else [(t.bscale + r * t.blocks + p.2.1 / f.block, cdiv (p.2.1 + p.2.2) f.block - p.2.1 / f.block)]
       | none => [])
  let rd := (if d.biasEn then [(d.biasAddr + 4 * p.2.1, 4 * p.2.2)] else []) ++
    (if d.cscaleEn then [(d.cscaleAddr + 4 * p.2.1, 4 * p.2.2)] else []) ++
    (if d.fmode == 1 then tensor aux else []) ++
    (match o.fmt with
     | some f => (if f.smooth then [(o.smoothAddr + 4 * p.2.1, 4 * p.2.2)] else []) ++
                 (if f.outlier then [(o.outlAddr + 8 * (p.2.1 / 128), 8 * (cdiv (p.2.1 + p.2.2) 128 - p.2.1 / 128))] else [])
     | none => [])
  let wr := tensor o ++ (if d.fmode == 2 then tensor aux else []) ++
    (if d.zmapEn then
       let g := cdiv o.inner 64
       rows.map fun r => (d.zmapAddr + (r / 16 * g + p.2.1 / 64) / 8, ((p.2.1 + p.2.2) / 64 + 8) / 8 - p.2.1 / 64 / 8)
     else [])
  (rd, wr)

/-- The drain of a slot on an array of a core: steps 0 to 5, with the DRAIN conversion and its counters (R105 to R107,
R72, R84, R96, R102). -/
def drainSlot (s : State) (core : Nat) (arr : Arr) (k : SlotSt) (daddr : Nat) (g : Agent := .drain core) : State :=
  let d := DrainDesc.ofNat (s.nat daddr 64)
  let o := OpDesc.ofNat (s.nat d.outDesc 64)
  let aux := OpDesc.ofNat (s.nat d.auxDesc 64)
  let col := OpDesc.ofNat (s.nat k.colAddr 64)
  match o.fmt with
  | none => s
  | some f0 =>
    let f := siteFmt .drain f0
    let ctl := siteCtl .drain (Ctl.ofWord s.inDebug d.ctlWord)
    let p := slotSpan o k
    let bank := Bank.drain core arr
    let fp := drainFootprint d o aux k
    let accs := slotInside o k
    let vals := accs.mapIdx fun i l => l.mapIdx fun j a =>
      s.drainElem d aux (p.1.1 + i) (p.2.1 + j) { a with poison := a.poison || k.mismatch }
    let hook := if d.vhookEn then s.hookRows (vals.map fun l => l.map (·.1)) else (vals.map fun l => l.map (·.1), s)
    let s0 := hook.2.noteReads fp.1
    let sid := streamId s.plan.leaf core 0x01
    -- pre-activation save (R106)
    let s1 := if d.fmode == 2 then
        let q : Conv := { elem := d.auxElem, kind := .none, block := 128, rot := 0, ctl := ctl
                          rand := { seed := s.plan.seed, sid := sid, inst := (ctl.inst + 1) % 65536, step := k.step }
                          raw32 := true, col0 := p.2.1, row0 := p.1.1, inner := o.inner }
        let out := q.run .one false [] (vals.map fun l => l.map fun v => (f32 v.2.1, v.2.2))
        let fx : Fmt := { elem := d.auxElem, kind := .none, block := 128, rot := 0, smooth := false, outlier := false }
        let w := s0.writeRows g aux fx p.2.1 (out.mapIdx fun i x => (p.1.1 + i, x))
        ((w.1.bumps bank (out.flatMap (·.counts))).bump bank POISONED w.2).faultIf (rowsPoisoned out) k.step FB_POISON
      else s0
    -- steps 4 and 5
    let q := s.convTo .drain o f ctl { seed := s.plan.seed, sid := sid, inst := ctl.inst, step := k.step } p.1.1 p.2.1 p.2.2
    let gone : List (List Bool) := if d.outmask && col.maskEn then
        (List.range p.1.2).map fun i => (List.range p.2.2).map fun j =>
          let r := p.1.1 + i
          let c := p.2.1 + j
          !(if col.maskT then s.maskAt col c r else s.maskAt col r c).1
      else []
    let out0 := q.run .one false gone (hook.1.map fun l => l.map fun v => (f32 v.1, v.2))
    let out := if k.mismatch then out0.map fun x => { x with cells := x.cells.map fun c => { c with poison := true }, scales := x.scales.map fun y => (y.1, true) } else out0
    let rows := out.mapIdx fun i x => (p.1.1 + i, x)
    let w := s1.writeRows g o f p.2.1 rows
    let s2 := if f0.kind == .e4m3t then w.1.writeBy g o.tscale ((natLE 4 fOne.toNat).map fun b => (b, false)) else w.1
    let s3 := if d.zmapEn then s2.writeZmap g d.zmapAddr o f p.1.1 p.2.1 (p.2.1 + p.2.2) rows else s2
    let inv := match q.smooth with | some fs => smoothInvalid fs | none => 0
    let psn := rowsPoisoned out
    let s4 := ((s3.bumps bank (out.flatMap (·.counts))).bump bank POISONED w.2).bump bank SCALE_INVALID inv
    let s5 := if k.mismatch then s4.bump bank PAIR_MISMATCH else s4
    (if psn then s5.bump (.activity core arr) AC_POISON_OUT else s5).faultIf psn k.step FB_POISON

end State

end Sys2Proof.Machine
end

