-- ==== Sys2Proof/Machine/Streams.lean ====
section
/-! DEFINITION. The sequencer: issue, completion and signals (R125, R126), steps (R145 to R148), sync and control
instructions (R141, R144), and the effects they share. -/

namespace Sys2Proof.Machine

/-- A phase in which a stream may issue. -/
def Phase.live : Phase → Bool
  | .ready | .waitSync | .waitEngine | .waitFence | .gate => true
  | _ => false

/-- Signals that are free to go: an instruction completed whose signal meets no earlier signal of the stream to the
same object still to be delivered (R126). Answers what stays in flight and what is delivered. -/
def releaseSignals : List InFlight → List (Nat × Option Nat) → List InFlight × List InFlight
  | [], _ => ([], [])
  | x :: xs, blocked =>
    match x.sig with
    | none =>
      let r := releaseSignals xs blocked
      if x.completed then (r.1, r.2) else (x :: r.1, r.2)
    | some g =>
      if x.completed && !blocked.contains (g.id, g.pier) then
        let r := releaseSignals xs blocked
        (r.1, x :: r.2)
      else
        let r := releaseSignals xs ((g.id, g.pier) :: blocked)
        (x :: r.1, r.2)

/-- Whether every earlier instruction of a stream has completed (R125 FENCE, R228). -/
def StreamSt.quiet (t : StreamSt) : Bool := t.inflight.all (·.completed)

/-- Index of the ENDLOOP that closes the LOOP before `pc`, by opcode list of the rest of the program. -/
def matchEnd : List Nat → Nat → Nat → Nat
  | [], pc, _ => pc
  | o :: os, pc, depth =>
    if o == OP_LOOP || o == OP_LOOPM then matchEnd os (pc + 1) (depth + 1)
    else if o == OP_ENDLOOP then (if depth = 0 then pc else matchEnd os (pc + 1) (depth - 1))
    else matchEnd os (pc + 1) depth

namespace State

/-- A signal delivered: on this pier at the object's home, otherwise over the fabric (R126, R136). A signal to a STEP
object is dropped between a failed gate's decision and the reset of R148. -/
def deliverSig (s : State) (g : Sig) (step : Nat) : State :=
  let here := if s.job.dropSignals && s.syncMode g.id == 1 then s else s.syncAdd g.id g.amount step
  match g.pier with
  | some p => if p == s.pierId then here else (if s.inGroup p then here else s).sendSignal g.core p g.id g.amount
  | none => here

/-- Completed instructions leave the stream and their free signals are delivered (R126, R147). -/
def settleStream (s : State) (r : SRef) : State :=
  let t := s.stream r
  let q := releaseSignals t.inflight []
  let s1 := s.setStream r { t with inflight := q.1, delivered := t.delivered ++ q.2.map fun x => (x.pc, x.idxs) }
  q.2.foldl (fun s x => match x.sig with | some g => s.deliverSig g t.step | none => s) s1

/-- Where an instruction's signal goes: none without sig_en, and none for an execution that R147 runs again. -/
def sigOf (r : SRef) (t : StreamSt) (w : IWord) (remote : Option Nat) : Option Sig :=
  if w.sigEn && !t.muted.contains (t.pc, t.idxs) then
    some { id := resolveId w.sigPar w.sigId t.step (parityOf r t), pier := remote, core := coreOf r }
  else none

/-- The head taken off a stream: it is in flight, and the next instruction is the head (R125). -/
def issued (r : SRef) (t : StreamSt) (w : IWord) (done clamped : Bool) (remote : Option Nat := none) : StreamSt :=
  { t with
    pc := t.pc + 1, phase := .ready, nextSeq := t.nextSeq + 1
    inflight := t.inflight ++ [{ seq := t.nextSeq, pc := t.pc, idxs := t.idxs, word := w, done := done, clamped := clamped, sig := sigOf r t w remote }] }

/-- An instruction the sequencer executes: issued and completed at once. -/
def executed (s : State) (r : SRef) (f : StreamSt → StreamSt) : State :=
  let t := s.stream r
  let w := s.head r
  let t1 := issued r t w true false
  let t2 := { t1 with inflight := t1.inflight.map fun x => if x.seq == t.nextSeq then { x with completed := true } else x }
  (s.setStream r (f t2)).settleStream r

/-- A fused attention or routing kernel code of a VRUN (R174, R197). -/
def kernelCode (w : IWord) : Bool := w.opcode == OP_VRUN && 0xA1 ≤ fld w 111 104 && fld w 111 104 ≤ 0xA5

/-- Whether a kernel of the stream has issued and not completed; its stream issues nothing (R174, R197). -/
def kernelOpen (t : StreamSt) : Bool := t.inflight.any fun x => !x.completed && kernelCode x.word

/-- The head instruction of a stream, where its opcode is one of those given and its wait is satisfied, is handed to
`k`. A head whose wait is not satisfied waits; a stream that is not running, or whose head is another instruction,
issues nothing. -/
def atHead (s : State) (r : SRef) (op : Nat) (k : StreamSt → IWord → State) : State :=
  let t := s.stream r
  let w := s.head r
  if t.phase.live && s.job.running && t.pc < (s.ctx r).plen && w.opcode == op then
    if !s.waitOk r w then s.setStream r { t with phase := .waitSync }
    else if kernelOpen t then s.setStream r { t with phase := .waitEngine }
    else k t w
  else s

/-- A note in an instruction's entry. -/
def markFlight (s : State) (r : SRef) (seq : Nat) (f : InFlight → InFlight) : State :=
  let t := s.stream r
  s.setStream r { t with inflight := t.inflight.map fun x => if x.seq == seq then f x else x }

/-- An instruction's work has reached its completion point (R125). -/
def workDone (s : State) (r : SRef) (seq : Nat) : State := s.markFlight r seq fun x => { x with done := true }

/-! ### Completion (R126) -/

/-- An instruction whose work is done completes, and signals are delivered in issue order. -/
def completeInstr (s : State) (r : SRef) (seq : Nat) : State :=
  let t := s.stream r
  let t1 : StreamSt := { t with inflight := t.inflight.map fun x => if x.seq == seq && x.done then { x with completed := true } else x }
  let c := t.inflight.any fun x => x.seq == seq && x.done && x.clamped
  ({ s with job := { s.job with clampedSeen := s.job.clampedSeen || c } }.setStream r t1).settleStream r

/-! ### Gates and steps (R145, R146) -/

/-- Whether the GATE of a stream's present step passes (R146), unless something holds it there (R321, R364, R396,
R407). -/
def gateOpen (s : State) (r : SRef) : Bool :=
  let t := s.stream r
  if isU r then t.step < s.job.decided && !s.job.holds.any (fun h => h == 2 || h == 3)
  else t.step ≤ s.job.decided && s.job.holds.isEmpty

/-- GATE passed: the stream goes on, and the instruction completes. -/
def passGate (s : State) (r : SRef) : State := s.executed r fun t => { t with gated := true }

/-- Every stream that waits at an open GATE passes it. -/
def passGates (s : State) : State :=
  (s.streams.map (·.1)).foldl (fun s r => if (s.stream r).phase == .gate && s.gateOpen r then s.passGate r else s) s

/-- The effect of GATE at the head: a U-stream first waits for its earlier instructions and marks its unit ready
(R146, R228). -/
def doGate (s : State) (r : SRef) : State :=
  let t := s.stream r
  if isU r && !t.quiet then s.setStream r { t with phase := .waitFence }
  else
    let s1 := s.setStream r { t with phase := .gate, ready := isU r || t.ready }
    if s1.gateOpen r then s1.passGate r else s1

/-- Whether pass 2 of a step has completed on every camber unit: each active U-stream has gone on or has ended the
step with nothing in flight (R145). -/
def pass2Done (s : State) (step : Nat) : Bool :=
  (List.range 12).all fun k =>
    let r := SRef.u k
    let t := s.stream r
    !(s.ctx r).active || t.step > step || (t.step == step && t.phase == .ended && t.quiet)

/-- A stream begins the step after the one it has ended, or its first step (R145, R140, R166). -/
def beginStep (s : State) (r : SRef) : State :=
  let t := s.stream r
  let next := if t.phase == .ended then t.step + 1 else t.step
  if !s.job.running || s.job.starting || !(s.ctx r).active || !(t.phase == .ended || t.phase == .inactive) then s
  else if next ≥ s.job.startStep + 2 && !s.pass2Done (next - 2) then s
  else if next > s.job.decided + 1 || s.job.dropSignals || (s.job.steps != 0 && next ≥ s.job.startStep + s.job.steps) then s
  else
    let s1 := if s.job.begun.contains next then s
      else { s.syncReset 1 (fun id => (id / 0x8000) == next % 2) with job := { s.job with begun := s.job.begun ++ [next] } }
    s1.setStream r { t with pc := 0, phase := .ready, loops := [], step := next, gated := false, ready := false,
                            chain := none, marks := [], delivered := [], muted := [] }

/-! ### Control (R144) -/

/-- Opcodes of a program from an index on. -/
def opcodesFrom (s : State) (r : SRef) (pc : Nat) : List Nat :=
  let c := s.ctx r
  (List.range (c.plen - pc)).map fun i => (s.nat (c.prog + 16 * (pc + i)) 1)

/-- A loop opened with a count; count 0 skips the body. -/
def openLoop (s : State) (r : SRef) (count : Nat) : State :=
  let pc := (s.stream r).pc
  if count = 0 then
    let e := matchEnd (s.opcodesFrom r (pc + 1)) (pc + 1) 0
    s.executed r fun t => { t with pc := e + 1 }
  else s.executed r fun t => { t with loops := { start := pc, count := count, idx := 0 } :: t.loops }

def doLoop (s : State) (r : SRef) (w : IWord) : State := s.openLoop r (fld w 127 112)

def doLoopM (s : State) (r : SRef) (w : IWord) : State :=
  let a := fld w 127 80
  let max' := max (fld w 79 64) 1
  let g := match r with | .u _ => Agent.tier | .f k | .b k => Agent.drain k
  let bs := if isU r then (List.range 4).map fun i => s.byte (a + i) else s.readBy g a 4
  let n := leNat (bs.map (·.1))
  let s1 := (s.noteReads [(a, 4)]).faultIf (bs.any (·.2)) (s.stream r).step FB_POISON
  let s2 := if n > max' then s1.report { kind := 2, clamp := CL_SAT, widthM1 := 31, bitOff := 0, index := (s.stream r).pc, supplied := n, used := max' } else s1
  s2.openLoop r (min n max')

def doEndLoop (s : State) (r : SRef) : State :=
  s.executed r fun t =>
    match t.loops with
    | [] => t
    | l :: ls => if l.idx + 1 < l.count then { t with pc := l.start + 1, loops := { l with idx := l.idx + 1 } :: ls } else { t with loops := ls }

/-- Condition of a branch (R144). -/
def brCond (c a b : Nat) : Bool := match c % 4 with | 0 => a == b | 1 => a != b | 2 => a < b | _ => a ≥ b

def doBrIdx (s : State) (r : SRef) (w : IWord) : State :=
  let t0 := s.stream r
  let take := brCond (fld w 109 108) (t0.index (fld w 111 110)) (fld w 95 64)
  s.executed r fun t => if take then { t with pc := ((t0.pc : Int) + sext 16 (fld w 127 112)).toNat } else t

def doFence (s : State) (r : SRef) : State :=
  let t := s.stream r
  if t.quiet then s.executed r id else s.setStream r { t with phase := .waitFence }

def doEnd (s : State) (r : SRef) : State := s.executed r fun t => { t with phase := .ended }

/-! ### Sync instructions (R141) -/

/-- The object an SADD, SSET or SSPAN names: sig_par applies and sig_en is ignored. -/
def syncTarget (r : SRef) (t : StreamSt) (w : IWord) : Nat := resolveId w.sigPar w.sigId t.step (parityOf r t)

/-- A sync instruction's own completion carries no signal. -/
def syncExecuted (s : State) (r : SRef) : State :=
  let t := s.stream r
  s.setStream r { t with pc := t.pc + 1, phase := .ready, nextSeq := t.nextSeq + 1 }

/-- An addition of this stream to an object, kept in issue order with its other signals (R126): it goes at once
where no earlier signal to the object is held, and is held behind it otherwise. -/
def syncInOrder (s : State) (r : SRef) (g : Sig) : State :=
  let t := s.stream r
  let x : InFlight := { seq := t.nextSeq, pc := t.pc, idxs := t.idxs, word := s.head r, done := true, completed := true,
                        sig := if t.muted.contains (t.pc, t.idxs) then none else some g }
  (s.setStream r { t with pc := t.pc + 1, phase := .ready, nextSeq := t.nextSeq + 1, inflight := t.inflight ++ [x] }).settleStream r

def doSadd (s : State) (r : SRef) (w : IWord) : State :=
  let t := s.stream r
  s.syncInOrder r { id := syncTarget r t w, amount := max (fld w 127 96) 1 }

def doSset (s : State) (r : SRef) (w : IWord) : State :=
  let t := s.stream r
  (s.setSync (syncTarget r t w) (fld w 127 96)).syncExecuted r

/-- Each distinct pier the span covers takes the amount once (R28). A handle that names nothing makes the instruction
a no-op. -/
def doSspan (s : State) (r : SRef) (w : IWord) : State :=
  let t := s.stream r
  let h := Handle.ofNat (fld w 127 96)
  let id := syncTarget r t w
  let s1 := if s.handleOk h && !t.muted.contains (t.pc, t.idxs) then
      (s.spanPiers h).foldl (fun s p => s.deliverSig { id := id, pier := some p, amount := fld w 95 64, core := coreOf r } t.step) s
    else s
  let s2 := if s.handleOk h then s1 else s1.report { kind := 2, clamp := CL_NULL, widthM1 := 31, bitOff := 96, index := t.pc, supplied := fld w 127 96 }
  (s2.setStream r { (s2.stream r) with delivered := t.delivered ++ [(t.pc, t.idxs)] }).syncExecuted r

end State

end Sys2Proof.Machine
end

