-- ==== Sys2Proof/Machine/Arrays.lean ====
section
/-! DEFINITION. Tile and table products on the arrays: operands and footprint (R89), chains (R127, R128), slots,
banks and stalls (R112 to R114), lending and recovery mode (R115, R116, R131, R132), accumulation and drains. -/

namespace Sys2Proof.Machine

namespace ArraySt

def bank (a : ArraySt) (b : Nat) : BankSt := if b == 0 then a.x else a.y
def setBank (a : ArraySt) (b : Nat) (v : BankSt) : ArraySt := if b == 0 then { a with x := v } else { a with y := v }
def slot (a : ArraySt) (b i : Nat) : Option SlotSt := if i == 0 then (a.bank b).s0 else (a.bank b).s1

/-- A slot set; a bank with no occupied slot is empty and loses its epoch (R112). -/
def setSlot (a : ArraySt) (b i : Nat) (v : Option SlotSt) : ArraySt :=
  let k := a.bank b
  let k1 := if i == 0 then { k with s0 := v } else { k with s1 := v }
  a.setBank b (if k1.s0.isNone && k1.s1.isNone then {} else k1)

def modSlot (a : ArraySt) (b i : Nat) (f : SlotSt → SlotSt) : ArraySt := a.setSlot b i ((a.slot b i).map f)

/-- The slot R113 gives a tile of an epoch: a free slot of a bank tagged with it, else an empty bank. -/
def findSlot (a : ArraySt) (e : Epoch) : Option (Nat × Nat) :=
  let free (b : Nat) : Option (Nat × Nat) :=
    if (a.bank b).epoch == some e then
      if (a.slot b 0).isNone then some (b, 0) else if (a.slot b 1).isNone then some (b, 1) else none
    else none
  match free 0 with
  | some p => some p
  | none =>
    match free 1 with
    | some p => some p
    | none => if a.x.epoch.isNone then some (0, 0) else if a.y.epoch.isNone then some (1, 0) else none

/-- An empty bank (R115, R132). -/
def hasEmptyBank (a : ArraySt) : Bool := a.x.epoch.isNone || a.y.epoch.isNone

end ArraySt

namespace State

def array (s : State) (core : Nat) (x : Arr) : ArraySt := aget s.arrays (core, x) {}
def setArray (s : State) (core : Nat) (x : Arr) (a : ArraySt) : State := { s with arrays := aset s.arrays (core, x) a }

def inRecovery (s : State) (core : Nat) : Bool := s.fp.recovery.contains core

/-- Array issue withheld by the power limit of the plan or by heat (R444, R446). -/
def arrayHeld (s : State) (core : Nat) : Bool := s.sys.powerHold || s.sys.heatHold.contains (core / 512)

/-! ### Footprint (R89) -/

/-- Byte ranges a tile reads of one operand, within the tensor. -/
def operandReads (o : OpDesc) (t zmap : Bool) (out : Int) (nOut : Nat) (k : Int) (n : Nat) : List (Nat × Nat) :=
  match o.fmt with
  | none => []
  | some f =>
    let r0 := (max (if t then k else out) 0).toNat
    let r1 := min ((if t then k + n else out + nOut)).toNat o.rows
    let c0 := (max (if t then out else k) 0).toNat
    let c1 := min ((if t then out + nOut else k + n)).toNat o.inner
    if r1 ≤ r0 || c1 ≤ c0 then []
    else
      let rows := (List.range (r1 - r0)).map (r0 + ·)
      let e := f.elem
      let span (a b : Nat) : Nat × Nat := (e.bits * a / 8, cdiv (e.bits * b) 8 - e.bits * a / 8)
      let p := if o.maskEn then span (c0 / 8 * 4) (cdiv c1 8 * 4) else span c0 c1
      rows.map (fun r => (o.base + r * o.stride + p.1, p.2)) ++
      (if f.kind == .none then [] else rows.map fun r => (o.bscale + r * o.blocks + c0 / f.block, cdiv c1 f.block - c0 / f.block)) ++
      (if f.kind == .e4m3t then [(o.tscale, 4)] else []) ++
      (if f.smooth then [(o.smoothAddr + 4 * c0, 4 * (c1 - c0))] else []) ++
      (if f.outlier then [(o.outlAddr + 8 * (c0 / 128), 8 * (cdiv c1 128 - c0 / 128))] else []) ++
      (if o.sideEn && f.outlier then rows.map fun r => (sideSlotAddr o r (c0 / 128) 0, 16 * (cdiv c1 128 - c0 / 128)) else []) ++
      (if o.sideEn && !f.outlier then rows.map fun r => (o.sideAddr + r * 2 * o.inner + 2 * c0, 2 * (c1 - c0)) else []) ++
      (if o.maskEn then (List.range (cdiv r1 8 - r0 / 8)).map fun i => (maskTileAddr o ((r0 / 8 + i) * 8) c0, 8 * (cdiv c1 8 - c0 / 8)) else []) ++
      (if zmap && o.zmapEn then
        let g := cdiv o.inner 64
        (List.range (cdiv r1 16 - r0 / 16)).map fun i =>
          let lo := ((r0 / 16 + i) * g + c0 / 64) / 8
          (o.zmapAddr + lo, ((r0 / 16 + i) * g + (c1 - 1) / 64) / 8 + 1 - lo)
       else [])

/-- What an issued tile product names: its words, decoded. -/
structure TileNames where
  td : TileDesc
  place : Place
  rowAddr : Nat
  colAddr : Nat
  drainAddr : Nat
  row : OpDesc
  col : OpDesc
  rowT : Bool
  colT : Bool
  epoch : Epoch
deriving DecidableEq, Repr

def tileNames (s : State) (r : SRef) (w : IWord) : TileNames :=
  let t := s.stream r
  let td := TileDesc.ofNat (s.descNat r w.didx)
  let ra := s.descAddr r td.rowOp
  let ca := s.descAddr r td.colOp
  let ro := OpDesc.ofNat (s.nat ra 64)
  let co := OpDesc.ofNat (s.nat ca 64)
  let tb := w.opcode == OP_TBPROD
  let rt := w.tRowT && !tb
  let ct := w.tColT && !tb
  let da := s.descAddr r td.drain
  { td := td, place := td.place (t.index 0) (t.index 1), rowAddr := ra, colAddr := ca, drainAddr := da, row := ro, col := co,
    rowT := rt, colT := ct
    epoch := { rowFmt := ro.fmtField, colFmt := co.fmtField, rowMask := ro.maskEn, colMask := co.maskEn, rowT := rt, colT := ct, drain := da } }

/-- A tile wholly outside the output tensor or wholly outside the reduction (R128). -/
def tileOutside (n : TileNames) (out : OpDesc) : Bool :=
  let p := n.place
  let red := min (if n.rowT then n.row.rows else n.row.inner) (if n.colT then n.col.rows else n.col.inner)
  p.m + p.mLen ≤ 0 || p.m ≥ out.rows || p.n + p.nLen ≤ 0 || p.n ≥ out.inner || p.k + p.kLen ≤ 0 || p.k ≥ red

/-- The first byte of a tile's footprint outside the permitted windows (R89). -/
def tileClamp (s : State) (core : Nat) (n : TileNames) : Option Nat :=
  let d := DrainDesc.ofNat (s.nat n.drainAddr 64)
  let out := OpDesc.ofNat (s.nat d.outDesc 64)
  let aux := OpDesc.ofNat (s.nat d.auxDesc 64)
  let p := n.place
  let rd := operandReads n.row n.rowT true p.m p.mLen p.k p.kLen ++ operandReads n.col n.colT false p.n p.nLen p.k p.kLen
  let k : SlotSt := { acc := [], mLen := p.mLen, nLen := p.nLen, m := p.m, n := p.n, colAddr := 0, stream := .f 0, step := 0 }
  let fp := drainFootprint d out aux k
  match s.outsideAll (.array core) false rd with
  | some a => some a
  | none =>
    match s.outsideAll (.drain core) false fp.1 with
    | some a => some a
    | none => s.outsideAll (.drain core) true fp.2

/-! ### Chains (R127) -/

/-- A closed chain's slot fills when no tile of it is still queued: its side pair is added, and it waits for the drain
path in the order of completion (R78, R109). -/
def fillSlot (s : State) (core : Nat) (x : Arr) (b i : Nat) : State :=
  let a := s.array core x
  match a.slot b i with
  | some k =>
    if k.closing && !k.full && !(a.queue.any fun t => t.bank == b && t.slot == i) then
      let k1 : SlotSt := { k with full := true, acc := if k.side then k.acc.map (·.map Acc.closeSide) else k.acc }
      s.setArray core x { a.setSlot b i (some k1) with full := a.full ++ [(b, i)] }
    else s
  | none => s

/-- The open chain of a stream drains as though its last tile had carried last = 1 (R127). -/
def closeChain (s : State) (r : SRef) : State :=
  let t := s.stream r
  match t.chain with
  | none => s
  | some c =>
    let core := coreOf r
    let a := s.array core c.arr
    ((s.setStream r { t with chain := none }).setArray core c.arr (a.modSlot c.bank c.slot fun k => { k with closing := true })).fillSlot core c.arr c.bank c.slot

/-- The arrays a tile that opens a chain may take, in order of preference (R116, R120, R131). -/
def tileArrays (s : State) (r : SRef) (w : IWord) : List Arr :=
  match r with
  | .u _ => []
  | .f k => if w.opcode == OP_TBPROD then [.t] else if s.inRecovery k then [.b0, .b1] else [.f]
  | .b _ => match w.engine with | 2 => [.b0] | 3 => [.b1] | _ => [.b0, .b1]

/-- The first of some arrays that offers a slot for an epoch. -/
def offerSlot (s : State) (core : Nat) (e : Epoch) : List Arr → Option (Arr × Nat × Nat)
  | [] => none
  | x :: xs => match (s.array core x).findSlot e with | some p => some (x, p.1, p.2) | none => offerSlot s core e xs

/-- A tile put on an array: into the slot given, opened where the tile starts a chain, and queued (R88, R127). -/
def placeTile (s : State) (r : SRef) (w : IWord) (n : TileNames) (x : Arr) (b i : Nat) (opens lent recovery : Bool) : State :=
  let core := coreOf r
  let t := s.stream r
  let p := n.place
  let a := s.array core x
  let a1 := if opens then
      let k : SlotSt := { acc := List.replicate p.mLen (List.replicate p.nLen {}), mLen := p.mLen, nLen := p.nLen, m := p.m, n := p.n,
                          colAddr := n.colAddr, stream := r, step := t.step, lent := lent, recovery := recovery }
      let bk := a.bank b
      (a.setBank b { bk with epoch := some n.epoch }).setSlot b i (some k)
    else a
  let a2 := a1.modSlot b i fun k => { k with closing := k.closing || w.tLast, seq := if w.tLast then some t.nextSeq else k.seq
                                             mismatch := k.mismatch || pairFails n.row n.col n.rowT n.colT }
  let run : TileRun := { stream := r, seq := t.nextSeq, word := w, rowAddr := n.rowAddr, colAddr := n.colAddr, place := p, bank := b, slot := i, last := w.tLast }
  let t1 := issued r t w false false
  let t2 := { t1 with chain := if w.tLast then none else some { arr := x, bank := b, slot := i, epoch := n.epoch, mLen := p.mLen, nLen := p.nLen } }
  (s.setArray core x { a2 with queue := a2.queue ++ [run] }).setStream r t2

/-- A stall noted for a stream, counted once against the array (R113). -/
def noteStall (s : State) (r : SRef) (x : Arr) : State :=
  let core := coreOf r
  let a := s.array core x
  if a.stalled.any (·.1 == r) then s
  else s.setArray core x { a with stalled := a.stalled ++ [(r, s.aclk)] }

/-- A stall that ends: counted, with its cycles, against the array that takes the tile (R113). -/
def endStall (s : State) (r : SRef) (x : Arr) : State :=
  let core := coreOf r
  [Arr.f, .b0, .b1, .t].foldl (fun (s : State) y =>
    let a := s.array core y
    match a.stalled.find? (·.1 == r) with
    | none => s
    | some st =>
      let s1 := s.setArray core y { a with stalled := a.stalled.filter (·.1 != r) }
      ((s1.bump (.activity core x) AC_BANK_STALL).bump (.activity core x) AC_STALL_CYCLES (s.aclk - st.2))) s

/-- The clamp of a cont = 1 tile: no open chain, or one of another epoch or size (R127). -/
def contOk (t : StreamSt) (n : TileNames) : Bool :=
  match t.chain with
  | none => false
  | some c => c.epoch == n.epoch && c.mLen == n.place.mLen && c.nLen == n.place.nLen

/-- A tile product issues: the Null clamps of R89 and R128, the chain rules of R127 and the slot rules of R113. -/
def issueTile (s : State) (r : SRef) (w : IWord) : State :=
  let core := coreOf r
  let t := s.stream r
  let n := s.tileNames r w
  let out := OpDesc.ofNat (s.nat (DrainDesc.ofNat (s.nat n.drainAddr 64)).outDesc 64)
  let bad := s.tileClamp core n
  if tileOutside n out || bad.isSome then
    let s1 := s.report { kind := 2, clamp := CL_NULL, widthM1 := 47, bitOff := 112, index := t.pc, supplied := bad.getD 0 }
    let s2 := if !w.tCont || w.tLast then s1.closeChain r else s1
    s2.setStream r (issued r (s2.stream r) w true true)
  else if s.arrayHeld core then s.setStream r { t with phase := .waitEngine }
  else if w.tCont && contOk t n then
    match t.chain with
    | some c => s.placeTile r w n c.arr c.bank c.slot false false false
    | none => s
  else
    let s1 := if w.tCont then s.report { kind := 2, clamp := CL_DEFAULT, widthM1 := 0, bitOff := 111, index := t.pc, supplied := 1, used := 0 } else s
    let s2 := s1.closeChain r
    let xs := s2.tileArrays r w
    match s2.offerSlot core n.epoch xs with
    | some (x, b, i) => (s2.endStall r x).placeTile r w n x b i true false (s2.inRecovery core && x != .t && !isU r && (match r with | .f _ => true | _ => false))
    | none =>
      let s3 := s2.noteStall r (xs.headD .f)
      s3.setStream r { s3.stream r with phase := .waitEngine }

/-! ### Lending (R132) -/

/-- Condition 4 of R132: the B-stream leaves its engines free. -/
def bIdle (s : State) (core : Nat) : Bool :=
  let r := SRef.b core
  let t := s.stream r
  !(s.ctx r).active || t.phase == .ended || t.phase == .gate || t.phase == .inactive || (t.phase.live && !s.waitOk r (s.head r))

/-- The F-stream's head tile lent to B0 or B1 where every condition of R132 holds. -/
def lend (s : State) (core : Nat) : State :=
  let r := SRef.f core
  let t := s.stream r
  let w := s.head r
  let n := s.tileNames r w
  let out := OpDesc.ofNat (s.nat (DrainDesc.ofNat (s.nat n.drainAddr 64)).outDesc 64)
  let x := if (s.array core .b0).hasEmptyBank then some Arr.b0 else if (s.array core .b1).hasEmptyBank then some Arr.b1 else none
  if t.phase.live && s.job.running && t.pc < (s.ctx r).plen && w.opcode == OP_TPROD && (s.ctx r).lendEn && w.tLend && !w.tCont &&
      !s.inRecovery core && !s.arrayHeld core && s.waitOk r w && (s.offerSlot core n.epoch [.f]).isNone && s.bIdle core &&
      !(tileOutside n out) && (s.tileClamp core n).isNone then
    match x with
    | none => s
    | some x =>
      let s1 := s.closeChain r
      match (s1.array core x).findSlot n.epoch with
      | some p => (s1.endStall r x).placeTile r w n x p.1 p.2 true true false
      | none => s
  else s

/-! ### Accumulation and drain -/

/-- The earliest tile of an array has its reduction range accumulated (R94, R125, R158). -/
def accumulateTile (s : State) (core : Nat) (x : Arr) : State :=
  let a := s.array core x
  match a.queue with
  | [] => s
  | q :: rest =>
    match a.slot q.bank q.slot with
    | none => s.setArray core x { a with queue := rest }
    | some k =>
      let row := OpDesc.ofNat (s.nat q.rowAddr 64)
      let col := OpDesc.ofNat (s.nat q.colAddr 64)
      let tb := x == .t
      let rt := IWord.tRowT q.word && !tb
      let ct := IWord.tColT q.word && !tb
      let p := q.place
      let ctx : TableCtx := { act := row.elem, weight := col.elem, planes := fld q.word 106 104 + 1, seed := s.plan.seed, leaf := s.plan.leaf,
                              core := core, inst := fld q.word 103 88, step := k.step, inner := row.inner }
      let acc := if tb then s.runTable ctx row col p k.acc else s.runTile row col rt ct p k.acc
      let side := row.sideEn && col.sideEn
      let a1 := (a.setSlot q.bank q.slot (some { k with acc := acc, side := k.side || side }))
      let lr := s.loadCounts row rt (!tb) p.m p.mLen p.k p.kLen
      let lc := s.loadCounts col ct false p.n p.nLen p.k p.kLen
      let s1 := (s.setArray core x { a1 with queue := rest }).noteReads
        (operandReads row rt (!tb) p.m p.mLen p.k p.kLen ++ operandReads col ct false p.n p.nLen p.k p.kLen)
      let s2 := s1.bumps (.drain core x) (lr.1 ++ lc.1)
      let s3 := ((s2.bump (.activity core x) AC_TILES).bump (.activity core x) AC_MASK_REPAIR (lr.2 + lc.2)).bump (.activity core x) AC_CHUNKS
        (if tb then 0 else s.chunksSkipped row rt p)
      let s4 := if k.lent then s3.bump (.activity core x) AC_LENT_IN else if k.recovery then s3.bump (.activity core x) AC_RECOVERY else s3
      let s5 := if tb then
          let tc := s.tableCounts ctx row col p
          ((s4.bump (.table core) 0 tc.1).bump (.table core) 1 tc.2.1).bump (.table core) 2 tc.2.2
        else s4
      let s6 := if q.last then s5 else s5.workDone q.stream q.seq
      s6.fillSlot core x q.bank q.slot

/-- The drain path takes the slot that completed first, and runs drain steps 0 to 5 on it (R105, R109). -/
def drainStart (s : State) (core : Nat) (x : Arr) : State :=
  let a := s.array core x
  if a.draining then s
  else match a.full with
    | [] => s
    | p :: _ =>
      match a.slot p.1 p.2, (a.bank p.1).epoch with
      | some k, some e => (s.setArray core x { a with draining := true }).drainSlot core x k e.drain
      | _, _ => s

/-- A stream stalled for a slot tries its head tile again (R113). -/
def retryStalled (s : State) (core : Nat) : State :=
  [SRef.f core, SRef.b core].foldl (fun (s : State) r =>
    let t := s.stream r
    let w := s.head r
    if t.phase == .waitEngine && (w.opcode == OP_TPROD || w.opcode == OP_TBPROD) && s.waitOk r w then s.issueTile r w else s) s

/-- The last element of the draining slot is written: the slot is free, its bank may empty, its instruction has done
its work, and a stalled tile takes a slot (R112, R113, R125). -/
def drainComplete (s : State) (core : Nat) (x : Arr) : State :=
  let a := s.array core x
  if !a.draining then s
  else match a.full with
    | [] => s
    | p :: rest =>
      let s1 := s.setArray core x { (a.setSlot p.1 p.2 none) with full := rest, draining := false }
      let s2 := match a.slot p.1 p.2 with
        | some k => (match k.seq with | some q => s1.workDone k.stream q | none => s1)
        | none => s1
      s2.retryStalled core

/-- Undrained slots of a stream discarded; the slot being drained finishes (R114, R148). -/
def discardSlots (s : State) (r : SRef) : State :=
  let core := coreOf r
  [Arr.f, .b0, .b1, .t].foldl (fun (s : State) x =>
    let a := s.array core x
    let busy (b i : Nat) : Bool := a.draining && a.full.head? == some (b, i)
    let a1 := [(0, 0), (0, 1), (1, 0), (1, 1)].foldl (fun (a' : ArraySt) p =>
      match a'.slot p.1 p.2 with
      | some k => if k.stream == r && !busy p.1 p.2 then a'.setSlot p.1 p.2 none else a'
      | none => a') a
    s.setArray core x { a1 with queue := a1.queue.filter (·.stream != r)
                                full := a1.full.filter fun p => (a1.slot p.1 p.2).isSome
                                stalled := a1.stalled.filter (·.1 != r) }) s

end State

end Sys2Proof.Machine
end

