-- ==== Sys2Proof/Machine/Vector.lean ====
section
/-! DEFINITION. Conversions on the V-engine (R61 to R63, R76, R134, R135, R251), copies, fills and the bank read on
the M-engine (R119, R136, R137), and V-engine programs (R110). -/

namespace Sys2Proof.Machine.State

/-- The memory a V-engine reads: own core slot, own cluster slot, HBM (R250). Other windows read as holes. -/
def viewOf (s : State) (core : Nat) : State :=
  { s with fp := { s.fp with coreBind := s.fp.coreBind.filter (·.1 == core), clusterBind := s.fp.clusterBind.filter (·.1 == core / 32) }, ddrBytes := 0 }

/-- The rows a conversion instruction covers: first row and number, within the source (R134). -/
def convRows (d : ConvDesc) (src : OpDesc) (l0 l1 : Nat) : Nat × Nat :=
  let first : Int := d.rowOff + d.dr0 * l0 + d.dr1 * l1
  let r0 := (max first 0).toNat
  let r1 := min (first + d.rowCnt).toNat src.rows
  (r0, r1 - r0)

/-- Presented values of a row of the source (R58). -/
def presented (s : State) (src : OpDesc) (n r : Nat) : List PV := (List.range n).map fun c => s.valueAt src r c

/-- Channel amaxes over rows of presented values (R76). -/
def channelAmax (rows : List (List PV)) (n : Nat) : List Amax :=
  rows.foldl (fun acc row => List.zipWith (fun a x => a.join (Amax.ofPV x)) acc row) (List.replicate n {})

/-- The larger of two FP32 words as unsigned numbers kept at a cell, in one action (R251). -/
def atomicMax (s : State) (g : Agent) (a : Nat) (v : F32) (p : Bool) : State :=
  let c := s.f32At a
  let w := if c.1.toNat < v.toNat then v else c.1
  s.writeBy g a ((natLE 4 w.toNat).map fun b => (b, p || c.2))

/-- What a conversion instruction works on. -/
structure ConvJob where
  d : ConvDesc
  src : OpDesc
  dst : OpDesc
  fmt : Fmt
  ctl : Ctl
  site : Site
  r0 : Nat
  cnt : Nat
  n : Nat
deriving DecidableEq, Repr

def convJob (s : State) (r : SRef) (w : IWord) : ConvJob :=
  let t := s.stream r
  let d := ConvDesc.ofNat (s.descNat r w.didx)
  let src := OpDesc.ofNat (s.descNat r d.srcOp)
  let dst := OpDesc.ofNat (s.descNat r d.dstOp)
  let site := if d.wire then Site.wire else .atrest
  let f0 : Fmt := dst.fmt.getD { elem := .fp32, kind := .none, block := 128, rot := 0, smooth := false, outlier := false }
  let p := convRows d src (t.index 0) (t.index 1)
  { d := d, src := src, dst := dst, fmt := siteFmt site f0, ctl := siteCtl site (Ctl.ofWord s.inDebug (fld w 95 64)), site := site
    r0 := p.1, cnt := p.2, n := min src.inner dst.inner }

/-- The random source of a conversion on a core (R81, R82). -/
def convRand (s : State) (core : Nat) (j : ConvJob) (step : Nat) : RandSite :=
  { seed := s.plan.seed, sid := streamId s.plan.leaf core (if j.site == .wire then 0x03 else 0x02), inst := j.ctl.inst, step := step }

/-- Byte ranges a conversion reads. -/
def convReads (j : ConvJob) : List (Nat × Nat) :=
  operandReads { j.src with zmapEn := false } false false j.r0 j.cnt 0 j.n ++
  (if j.fmt.smooth then [(j.dst.smoothAddr, 4 * j.n)] else []) ++
  (if j.d.fromCells && j.fmt.kind == .e4m3t then [(j.d.amaxAddr, 4)] else [])

/-- The outlier lists of a conversion: static entries as stored, or the dynamic choice with its excess count (R76). -/
def convOutliers (s : State) (j : ConvJob) (rows : List (List PV)) : List (List Nat × Bool) × Nat :=
  if !j.fmt.outlier then ([], 0)
  else if !j.ctl.dynamic then (s.outliers j.dst, 0)
  else
    let am := if j.d.fromCells then
        (List.range j.n).map fun c => let x := s.f32At (j.d.chamaxAddr + 4 * c); (Amax.ofCell x.1 x.2).getD { poison := x.2 }
      else channelAmax rows j.n
    let gs := (List.range (cdiv j.n 128)).map fun g =>
      let cs := (am.drop (128 * g)).take 128
      let p := dynamicPick j.ctl.tau cs
      (p.1.map (128 * g + ·), cs.any (·.poison), p.2)
    (gs.map fun g => (g.1, g.2.1), (gs.map (·.2.2)).sum)

/-- The conversion set up without its tensor scale. -/
def convOf (s : State) (core : Nat) (j : ConvJob) (step : Nat) (outl : List (List Nat × Bool)) : Conv :=
  { elem := j.fmt.elem, kind := j.fmt.kind, block := j.fmt.block, rot := j.fmt.rot, ctl := j.ctl, rand := s.convRand core j step
    smooth := if j.fmt.smooth then some (s.smoothVec j.dst 0 j.n) else none
    outl := outl.map (·.1), col0 := 0, row0 := j.r0, inner := j.dst.inner }

def convRowsOf (s : State) (core : Nat) (j : ConvJob) : List (List PV) :=
  (List.range j.cnt).map fun i => (s.viewOf core).presented j.src j.n (j.r0 + i)

/-- A V- or M-instruction that becomes a no-op, reported (R6, R7). -/
def nullInstr (s : State) (r : SRef) (w : IWord) (bitOff : Nat) : State :=
  let t := s.stream r
  (s.report { kind := 2, clamp := CL_NULL, widthM1 := 15, bitOff := bitOff, index := t.pc, supplied := w.didx }).setStream r (issued r t w true true)

/-- QAMAX: the amax of the rows after smoothing and rotation applied at its cell (R135). -/
def doQamax (s : State) (r : SRef) (w : IWord) : State :=
  let core := coreOf r
  let t := s.stream r
  let j := s.convJob r w
  if j.cnt = 0 then s.nullInstr r w 112
  else
    let rows := s.convRowsOf core j
    let o := s.convOutliers { j with ctl := { j.ctl with dynamic := false } } rows
    let q := s.convOf core j t.step o.1
    let a := (rows.map fun x => amaxOf (q.prepare x)).foldl Amax.join {}
    let bad := !s.reach (.vec core) true j.d.amaxAddr
    let s1 := ((s.noteReads (convReads j)).atomicMax (.vec core) j.d.amaxAddr a.word a.poison).faultIf a.poison t.step FB_POISON
    s1.setStream r (issued r (s1.stream r) w true bad)

/-- QCHAMAX: channel amaxes before smoothing applied at their cells (R135). -/
def doQchamax (s : State) (r : SRef) (w : IWord) : State :=
  let core := coreOf r
  let t := s.stream r
  let j := s.convJob r w
  if j.cnt = 0 then s.nullInstr r w 112
  else
    let am := channelAmax (s.convRowsOf core j) j.n
    let s1 := am.zipIdx.foldl (fun (s : State) x => s.atomicMax (.vec core) (j.d.chamaxAddr + 4 * x.2) x.1.word x.1.poison) (s.noteReads (convReads j))
    let s2 := s1.faultIf (am.any (·.poison)) t.step FB_POISON
    s2.setStream r (issued r (s2.stream r) w true (s.outside (.vec core) true j.d.chamaxAddr (4 * j.n)).isSome)

/-- The conversion of a job's rows, written through an agent; amaxes are taken over all the rows given (R61, R134,
R135). -/
def convWork (s : State) (core step : Nat) (j : ConvJob) (g : Agent) (rows all : List (List PV)) : State :=
    let bank := if j.site == .wire then Bank.wire core else .atrest core
    let o := s.convOutliers j all
    let q := s.convOf core j step o.1
    let cell := s.f32At j.d.amaxAddr
    let am : Option Amax := if j.d.fromCells then Amax.ofCell cell.1 cell.2 else some ((all.map fun x => amaxOf (q.prepare x)).foldl Amax.join {})
    let ts : F32 × List Nat × Bool := if j.fmt.kind == .e4m3t then
        match am with
        | some a => let x := q.tensorScaleOf a; (x.1, x.2, a.poison)
        | none => (Config.badAmaxScale cell.1, [], cell.2)
      else (fOne, [], false)
    let st := if j.fmt.kind == .e4m3t then f32 ts.1 else Ext.one
    let out := q.run st ts.2.2 [] rows
    let inDst := (out.mapIdx fun i x => (j.r0 + i, x)).filter fun x => x.1 < j.dst.rows
    let s0 := s.noteReads (convReads j)
    let w1 := s0.writeRows g j.dst j.fmt 0 inDst
    let s1 := if j.fmt.kind == .e4m3t then w1.1.writeBy g j.dst.tscale ((natLE 4 ts.1.toNat).map fun b => (b, ts.2.2)) else w1.1
    let s2 := if j.fmt.outlier && j.ctl.dynamic then
        o.1.zipIdx.foldl (fun (s : State) x =>
          s.writeBy g (j.dst.outlAddr + 8 * x.2) ((natLE 8 (outlierEntry (x.1.1.map (· % 128)))).map fun b => (b, x.1.2))) s1
      else s1
    let s3 := if j.dst.zmapEn && j.site == .atrest then s2.writeZmap g j.dst.zmapAddr j.dst j.fmt j.r0 0 j.n inDst else s2
    let inv := match q.smooth with | some fs => smoothInvalid fs | none => 0
    let psn := rowsPoisoned out || ts.2.2 || (j.ctl.dynamic && o.1.any (·.2))
    let s4 := ((((s3.bumps bank (out.flatMap (·.counts))).bumps bank ts.2.1).bump bank POISONED w1.2).bump bank SCALE_INVALID inv).bump bank OUTLIER_EXCESS o.2
    s4.faultIf psn step FB_POISON

/-- QCONV: an ATREST or WIRE conversion of the rows (R61, R134). -/
def doQconv (s : State) (r : SRef) (w : IWord) : State :=
  let core := coreOf r
  let g := Agent.vec core
  let j := s.convJob r w
  if j.cnt = 0 then s.nullInstr r w 112
  else
    let rows := s.convRowsOf core j
    let s1 := s.convWork core (s.stream r).step j g rows rows
    let bad := (s.outside g true (j.dst.base + j.r0 * j.dst.stride) ((j.cnt - 1) * j.dst.stride + j.fmt.elem.rowBytes j.dst.inner)).isSome
    s1.setStream r (issued r (s1.stream r) w true bad)

/-! ### V-engine programs (R110) -/

/-- A V-engine program run by a core: its stores, within the engine's reach, are free, its encoding not being given.
The bits are the poison of what it wrote. -/
def vprogRun (s : State) (core step : Nat) : State :=
  let st := Config.vprogStores s.freeCtr
  let s1 := st.foldl (fun (s : State) x => s.writeBy (.vec core) x.1 ((natLE 4 x.2.1.toNat).map fun b => (b, x.2.2))) { s with freeCtr := s.freeCtr + 1 }
  s1.faultIf (st.any (·.2.2)) step FB_POISON

/-! ### Copies (R136, R137) -/

/-- Copies of a core's streams that its M-engine holds in flight (R131). -/
def copiesInFlight (s : State) (core : Nat) : Nat :=
  ([SRef.f core, SRef.b core].map fun r => ((s.stream r).inflight.filter fun x => !x.completed && (IWord.engine x.word == ENG_M)).length).sum

/-- A fabric address: pier and local address, where [63:60] are 0 (R32). -/
def fabricPier (a : Nat) : Nat := fld a 59 48
def fabricLocal (a : Nat) : Nat := fld a 47 0

/-- Whether a fabric address names this pier, a pier the job owns, or for a write a group or broadcast (R32, R33). -/
def fabricOk (s : State) (wr : Bool) (a : Nat) : Bool :=
  fld a 63 60 == 0 && (fabricPier a == s.pierId || s.ownedPiers.contains (fabricPier a) || (wr && fabricPier a ≥ 0x800 && !(s.groupMembers (fabricPier a)).isEmpty))

/-- A byte address stepped by loop indices, modulo the 64 bits of a fabric address. -/
def stepped (a : Nat) (d0 d1 : Int) (l0 l1 : Nat) : Nat := ((((a : Int) + d0 * l0 + d1 * l1) % (2 ^ 64 : Int))).toNat

/-- One row written at its destination: here, or over the fabric (R32, R137). -/
def putRow (s : State) (core dst : Nat) (bs : List (Byte × Bool)) : State :=
  if !s.fabricOk true dst then s
  else if fabricPier dst == s.pierId then s.writeBy .move (fabricLocal dst) bs
  else (if s.inGroup (fabricPier dst) then s.writeBy .move (fabricLocal dst) bs else s).sendWrite core (fabricPier dst) (fabricLocal dst) bs

/-- MCOPY, row by row (R136, R137). -/
def copyRows (s : State) (r : SRef) (c : CopyDesc) (src dst : Nat) : State × Bool :=
  let core := coreOf r
  let seq := (s.stream r).nextSeq
  (List.range c.rows).foldl (fun (t : State × Bool) i =>
    let a := src + i * c.srcStride
    let d := dst + i * c.dstStride
    if !t.1.fabricOk false a then (t.1.putRow core d (List.replicate c.rowBytes (0#8, false)), t.2)
    else if fabricPier a == t.1.pierId then
      let bs := t.1.readBy .move (fabricLocal a) c.rowBytes
      ((t.1.noteReads [(fabricLocal a, c.rowBytes)]).putRow core d bs, t.2 || bs.any (·.2))
    else (t.1.sendRead r seq core (fabricPier a) (fabricLocal a) c.rowBytes (fabricLocal d), t.2)) (s, false)

def copyEnds (s : State) (r : SRef) (c : CopyDesc) : Nat × Nat :=
  let t := s.stream r
  (stepped c.src c.src0 c.src1 (t.index 0) (t.index 1), stepped c.dst c.dst0 c.dst1 (t.index 0) (t.index 1))

/-- Whether some byte of a copy's local end lies outside the M-engine's reach or an end names nothing (R33). -/
def copyClamped (s : State) (c : CopyDesc) (src dst : Option Nat) : Bool :=
  (List.range c.rows).any fun i =>
    (match src with
     | some a => let x := a + i * c.srcStride; !s.fabricOk false x || (fabricPier x == s.pierId && (s.outside .move false (fabricLocal x) c.rowBytes).isSome)
     | none => false) ||
    (match dst with
     | some a => let x := a + i * c.dstStride; !s.fabricOk true x || (fabricPier x == s.pierId && (s.outside .move true (fabricLocal x) c.rowBytes).isSome)
     | none => false)

/-- Whether a page copy's other end is local and its page end remote, and what its request to the other pier is
(R188). -/
def askPage (s : State) (r : SRef) (pier : Nat) (p : PagePart) (out : Bool) : State :=
  let seq := (s.stream r).nextSeq
  let rows := List.range p.rows
  match (PageName.ofAddr p.win).part, out with
  | 5, _ => (s.expectBytes r seq p.other 4).sendCtrl pier (.lease p.win p.other s.pierId)
  | 6, _ => s.sendCtrl pier (.release p.win)
  | 7, _ => s.sendCtrl pier (.clear p.win)
  | _, true => (rows.foldl (fun (t : State) i => t.expectBytes r seq (p.other + i * p.stride) p.rowBytes) s).sendCtrl pier (.pageRead { p with pier := some s.pierId })
  | _, false =>
    let data := rows.map fun i => s.readBy .move (p.other + i * p.stride) p.rowBytes
    (s.noteReads (rows.map fun i => (p.other + i * p.stride, p.rowBytes))).sendCtrl pier (.pageWrite { p with pier := some s.pierId, data := data })

/-- MCOPY with a page end (R188): a part moved, a lease taken or released, or a layer-head cleared. A copy that must
wait for a page stays at the head of its stream. -/
def copyPage (s : State) (r : SRef) (w : IWord) (c : CopyDesc) (src dst : Nat) : State :=
  let t := s.stream r
  let out := isPageWindow (fabricLocal src)
  let page := if out then src else dst
  let far := if out then dst else src
  let win := fabricLocal page
  let other := fabricLocal far
  let p : PagePart :=
    { win := win, row0 := if out then c.srcStride else c.dstStride, rows := c.rows, rowBytes := c.rowBytes, other := other
      stride := if out then c.dstStride else c.srcStride, pier := if fabricPier far == s.pierId then none else some (fabricPier far) }
  let fin (s : State) : State :=
    s.setStream r (issued r (s.stream r) w (!s.readsOpen r t.nextSeq) false (if w.rsig then some (fabricPier dst) else none))
  let k := (PageName.ofAddr win).part
  let badPart := k > 7 || (k == 5 && !out) || ((k == 6 || k == 7) && out)
  if badPart then s.nullInstr r w 384
  else if fabricPier page != s.pierId then fin (s.askPage r (fabricPier page) p out)
  else
    match k with
    | 5 => fin (s.leaseTo p.pier win other)
    | 6 => fin (s.doRelease win)
    | 7 => fin (s.doClear win)
    | _ =>
      match (if out then s.pageRead p else s.pageWrite p) with
      | .done s' => fin s'
      | .wait s' => s'.setStream r { t with phase := .waitEngine }

def doMcopy (s : State) (r : SRef) (w : IWord) : State :=
  let core := coreOf r
  let t := s.stream r
  let c := CopyDesc.ofNat (s.descNat r w.didx)
  let e := s.copyEnds r c
  let bothRemote := fabricPier e.1 != s.pierId && fabricPier e.2 != s.pierId
  let srcPage := isPageWindow (fabricLocal e.1)
  let dstPage := isPageWindow (fabricLocal e.2)
  if s.copiesInFlight core ≥ 4 then s.setStream r { t with phase := .waitEngine }
  else if bothRemote || (srcPage && dstPage) then s.nullInstr r w 384
  else if (srcPage || dstPage) && s.fabricOk false e.1 && s.fabricOk false e.2 then s.copyPage r w c e.1 e.2
  else
    let x := s.copyRows r c e.1 e.2
    let bad := s.copyClamped c (some e.1) (some e.2)
    let s1 := x.1.faultIf x.2 t.step FB_POISON
    let s2 := if bad then s1.report { kind := 2, clamp := CL_NULL, widthM1 := 63, bitOff := 384, index := t.pc, supplied := e.2 } else s1
    s2.setStream r (issued r (s2.stream r) w (!s2.readsOpen r t.nextSeq) bad (if w.rsig then some (fabricPier e.2) else none))

def doMfill (s : State) (r : SRef) (w : IWord) : State :=
  let core := coreOf r
  let t := s.stream r
  let c := CopyDesc.ofNat (s.descNat r w.didx)
  let e := s.copyEnds r c
  let n := c.fillBytes
  if s.copiesInFlight core ≥ 4 then s.setStream r { t with phase := .waitEngine }
  else
    let row : List (Byte × Bool) := (List.replicate (n / 4) (natLE 4 (fld w 95 64))).flatten.map fun b => (b, false)
    let s1 := (List.range c.rows).foldl (fun (s : State) i => s.putRow core (e.2 + i * c.dstStride) row) s
    let bad := s.copyClamped { c with rowBytes := n } none (some e.2)
    let s2 := if bad then s1.report { kind := 2, clamp := CL_NULL, widthM1 := 63, bitOff := 384, index := t.pc, supplied := e.2 } else s1
    s2.setStream r (issued r (s2.stream r) w true bad)

/-- The pairs and poison map of a slot in the layout of R119. A slot that holds nothing gives free values. -/
def bankImage (s : State) (k : Option SlotSt) : List Byte × State :=
  match k with
  | some k =>
    let pair (i j : Nat) : Acc := (k.acc.getD i []).getD j {}
    let ps := (List.range 48).flatMap fun i => (List.range 256).flatMap fun j => natLE 4 (pair i j).s.toNat ++ natLE 4 (pair i j).c.toNat
    let map := (List.range 1536).map fun b => BitVec.ofNat 8 (((List.range 8).map fun e => let n := 8 * b + e; b2n (pair (n / 256) (n % 256)).poison * 2 ^ e).sum)
    (ps ++ map, s)
  | none => ((List.range 24960).flatMap fun i => natLE 4 (Config.freeWord (s.freeCtr + i)).toNat, { s with freeCtr := s.freeCtr + 24960 })

def doBankRead (s : State) (r : SRef) (w : IWord) : State :=
  let core := coreOf r
  let t := s.stream r
  if s.copiesInFlight core ≥ 4 then s.setStream r { t with phase := .waitEngine }
  else if !s.inDebug then s.nullInstr r w 72
  else
    let dst := fld w 119 72
    let x := s.bankImage ((s.array core (Arr.ofCode (fld w 127 126))).slot (fld w 125 125) (fld w 124 124))
    let s1 := x.2.writeBy (.array core) dst (x.1.map fun b => (b, false))
    s1.setStream r (issued r (s1.stream r) w true (s.outside (.array core) true dst x.1.length).isSome)

end Sys2Proof.Machine.State
end

