-- ==== Sys2Proof/Machine/Attn.lean ====
section
/-! DEFINITION. The fused attention kernel: visibility (R171, R172), forward walk (R177, R178), backward recompute
(R181, R182) and the sequence ring (R183, R184). -/

namespace Sys2Proof.Machine

/-- An attention descriptor (R175). -/
structure AttnDesc where
  slot : Nat
  layer : Nat
  kvh : Nat
  backward : Bool
  causal : Bool
  useGlobal : Bool
  useBmap : Bool
  window : Nat
  alpha : F32
  g12 : Bool
  qOp : Nat
  oOp : Nat
  doOp : Nat
  dqOp : Nat
  dkv : Nat
  stats : Nat
  pCtl : Nat
  pFmt : Nat
  oCtl : Nat
  ring : Nat
  ringPos : Nat
  ringAddr : Nat
  qsub : Nat
  qOff : Nat
  dq0 : Int
deriving DecidableEq, Repr

/-- The default score multiplier 1/√(head width), rounded by RNE (R175). -/
def AttnDesc.ofNat (v dh : Nat) : AttnDesc :=
  let a := BitVec.ofNat 32 (fld v 472 441)
  let ring := fld v 199 196 + 1
  { slot := fld v 511 504, layer := fld v 503 496, kvh := fld v 495 492, backward := fld v 491 490 == 1, causal := bitOf v 489,
    useGlobal := bitOf v 488, useBmap := bitOf v 487, window := min (fld v 486 473) 8192
    alpha := if finite32 a then a else if dh == 64 then 0x3E000000#32 else fsqrt (rne32 (.fin false 1 128))
    g12 := bitOf v 440, qOp := fld v 439 424, oOp := fld v 423 408, doOp := fld v 407 392, dqOp := fld v 391 376,
    dkv := fld v 375 328, stats := fld v 327 280, pCtl := fld v 279 248, pFmt := fld v 247 232, oCtl := fld v 231 200,
    ring := ring, ringPos := min (fld v 195 192) (ring - 1), ringAddr := fld v 191 144, qsub := fld v 143 140, qOff := fld v 139 118, dq0 := sext 16 (fld v 117 102) }

/-- Attention counters (R196). -/
abbrev TC_SKIPPED : Nat := 0
abbrev TC_EMPTY : Nat := 1
abbrev TC_NONFINITE : Nat := 2
abbrev TC_GLOBAL : Nat := 3

def fNegInf : F32 := 0xFF800000#32

/-- The larger of two FP32 values that are not NaN. -/
def fmax (a b : F32) : F32 := if flt a b then b else a

/-- A kernel as it runs: descriptor, slot, stream position. -/
structure Kernel where
  d : AttnDesc
  q : SeqSlot
  core : Nat
  step : Nat
  r : SRef
  /-- base of the operand indices -/
  dbase : Nat
  /-- an operator runs it (R323) -/
  op : Bool := false
deriving DecidableEq, Repr

def Kernel.gv (k : Kernel) : Agent := if k.op then .op else .vec k.core
def Kernel.gd (k : Kernel) : Agent := if k.op then .op else .drain k.core

namespace State

/-! ### Visibility (R171, R172) -/

/-- Entries of the global list that count, and the number ignored; a poisoned word holds no position (R171). -/
def globalList (s : State) (q : SeqSlot) : List Nat × Nat × Bool :=
  let ws := (List.range q.gcount).map fun i => let w := s.f32At (q.gaddr + 4 * i); (w.1.toNat, w.2)
  let r := ws.foldl (fun (a : List Nat × Option Nat × Nat) w =>
    if w.2 then a
    else
      let ok := w.1 < q.total && (match a.2.1 with | some p => w.1 > p | none => true)
      if ok then (a.1 ++ [w.1], some w.1, a.2.2) else (a.1, some w.1, a.2.2 + 1)) ([], none, 0)
  (r.1, r.2.2, ws.any (·.2))

/-- The bitmap bit of a pair of 128-position blocks, with the poison of its word. -/
def bmapBit (s : State) (q : SeqSlot) (qb kb : Nat) : Bool × Bool :=
  let x := qb * cdiv q.total 128 + kb
  let b := s.byte (q.bmap + x / 8)
  (!b.2 && bitOf b.1.toNat (x % 8), b.2)

/-- Whether query position i sees key position j, and whether a poisoned word decides it (R171, R172). -/
def sees (s : State) (k : Kernel) (gl : List Nat × Nat × Bool) (i j : Nat) : Bool × Bool :=
  if !(i < k.q.total && j < k.q.total) || (k.d.causal && j > i) then (false, false)
  else
    let near := k.d.window > 0 && (if i ≤ j then j - i else i - j) < k.d.window
    if near then (true, false)
    else
      let g := k.d.useGlobal && (gl.1.contains j || gl.1.contains i)
      let b := if k.d.useBmap && k.q.bmapEn then s.bmapBit k.q (i / 128) (j / 128) else (false, false)
      (g || b.1, (k.d.useGlobal && gl.2.2 && !g && !b.1) || b.2)

/-! ### Chunks and pages (R176, R183) -/

/-- First absolute position of the chunk of a ring position: the chunks are contiguous and of one length (log 23). -/
def chunkFirst (k : Kernel) (p : Nat) : Nat :=
  if p == k.d.ringPos then k.q.first
  else if k.d.ringPos == 0 then p * k.q.localLen
  else p * (k.q.first / k.d.ringPos)

/-- Where round `rd` of the walk reads block `b`: a page of this pier, or a frame of a receive buffer. -/
def ringBuffer (k : Kernel) (rd : Nat) : Nat :=
  let fr := 0x10000 * k.q.nblk
  let size := if k.d.backward then cdiv (fr + 16 * k.q.dh * 128 * k.q.nblk) 0x10000 * 0x10000 else fr
  k.d.ringAddr + (rd % 2) * size

/-- The frame of block `b`, and whether it reads as zeros (none), with poison. -/
def blockFrame (s : State) (k : Kernel) (rd b : Nat) : Option Nat × Bool :=
  if rd == 0 then
    let e := s.pageEntry (k.q.pteBase + (k.d.layer * k.q.kvh + k.d.kvh) * k.q.nblk + b)
    match e.state with
    | .dropped => (none, e.fill != 0)
    | _ => (some (frameAddr e.frame), false)
  else (some (ringBuffer k rd + 0x10000 * b), false)

/-- The operand descriptor of a page part at a frame (R176). -/
def partDesc (k : Kernel) (frame : Nat) (vt : Bool) : OpDesc :=
  let fw := if k.d.g12 then 0x0B else 0x08 + 1 * 2 ^ 5 + 1 * 2 ^ 7
  { base := frame + (if vt then 0x6000 else 0), fmtField := fw, fmt := Fmt.ofField fw, rows := 128, inner := 128
    stride := if k.d.g12 then 192 else 128, bscale := frame + (if vt then 0xC200 else 0xC000), tscale := 0, smoothAddr := 0,
    outlAddr := 0, maskAddr := 0, zmapAddr := 0, sideAddr := 0, maskEn := false, maskT := false, zmapEn := false, sideEn := false }

/-- Element (r, c) of a part of block `b`; a dropped page reads as zeros, poisoned where it was written (R189). -/
def partElem (s : State) (k : Kernel) (rd b : Nat) (vt : Bool) (r c : Nat) : OpElem :=
  let f := s.blockFrame k rd b
  match f.1 with
  | none => { poison := f.2 }
  | some a => s.elemAt (partDesc k a vt) false r c

/-- K element of key position x of the chunk, dimension d. -/
def keyElem (s : State) (k : Kernel) (rd x d : Nat) : OpElem := s.partElem k rd (x / 128) false (x % 128) d
/-- V element of key position x of the chunk, dimension d. -/
def valElem (s : State) (k : Kernel) (rd x d : Nat) : OpElem := s.partElem k rd (x / 128) true d (x % 128)

def pageBlock (k : Kernel) : Nat := if k.d.g12 then 128 else 32

/-! ### Products of the kernel (R177, R181) -/

/-- score(i, j): the product of a query row and a key after drain step 1 (R177). -/
def score (s : State) (k : Kernel) (qo : OpDesc) (rd i x : Nat) : F32 × Bool :=
  let row := s.loadLine qo false true (i : Int) 0 k.q.dh
  let col := (List.range k.q.dh).map fun d => s.keyElem k rd x d
  let a := accumulate (min (blockOf qo false) (pageBlock k)) 0 row col {}
  (fmul (resolve (a.s, a.c)) k.d.alpha, a.poison)

/-- The conversion of probabilities: DRAIN under a control word with the absolute key position as innermost index. -/
def probConv (s : State) (k : Kernel) (f : Fmt) (inst c0 row : Nat) : Conv :=
  let ctl := siteCtl .drain (Ctl.ofWord s.inDebug k.d.pCtl)
  { elem := f.elem, kind := f.kind, block := f.block, rot := 0, ctl := ctl, raw32 := true
    rand := { seed := s.plan.seed, sid := streamId s.plan.leaf k.core 0x01, inst := (ctl.inst + inst) % 65536, step := k.step }
    col0 := c0, row0 := row, inner := k.q.total }

def probFmt (k : Kernel) : Fmt :=
  let f := siteFmt .drain ((Fmt.ofField (k.d.pFmt % 2 ^ 9)).getD { elem := .fp32, kind := .none, block := 128, rot := 0, smooth := false, outlier := false })
  { f with rot := 0, smooth := false, outlier := false }

/-- Narrowed probabilities of a tile as operand elements: positions not visible are +0 (R177). -/
def narrowProbs (s : State) (k : Kernel) (inst c0 row : Nat) (vis : List Bool) (ps : List (F32 × Bool)) : List OpElem × List Nat :=
  let f := probFmt k
  let q := s.probConv k f inst c0 row
  let o := q.narrowRow .one false 0 (vis.map not) (ps.map fun p => (f32 p.1, p.2))
  (o.cells.mapIdx fun j c =>
    let sc := if f.kind == .none then Ext.one else f.kind.value (o.scales.getD ((c0 + j) / f.block - c0 / f.block) (0, false)).1
    let v := f.elem.decode c.code
    if vis.getD j false then { val := v, scale := sc, code := c.code, absent := !sc.isNan && (v.isZero || sc.isZero), poison := c.poison || c.own } else {},
   o.counts)

/-- Value of an operand element as FP32. -/
def elemF32 (x : OpElem) : F32 := if x.scale.isNan then nan32 else rne32 (x.val.mul x.scale)

/-! ### One tile of one row, forward (R177) -/

/-- Positions of the tile at local block pair `t` that the chunk holds: local indices below the chunk's blocks. -/
def tilePositions (k : Kernel) (t : Nat) : List Nat := (List.range 256).map (256 * t + ·) |>.filter fun x => x < 128 * k.q.nblk

def attendTile (s : State) (k : Kernel) (gl : List Nat × Nat × Bool) (qo : OpDesc) (rd t i : Nat) (a : AttnRow) : AttnRow × List Nat :=
  let c0 := chunkFirst k ((k.d.ringPos + k.d.ring - rd % k.d.ring) % k.d.ring)
  let xs := tilePositions k t
  let seen := xs.map fun x => s.sees k gl (k.q.first + i) (c0 + x)
  let vis := seen.map (·.1)
  let dec := seen.any (·.2)
  if !vis.any id then ({ a with poison := a.poison || dec }, [])
  else
    let sc := (List.zip xs vis).map fun p => if p.2 then s.score k qo rd i p.1 else (0#32, false)
    let live := (List.zip sc vis).filterMap fun p => if p.2 then some p.1 else none
    let psn := a.poison || dec || live.any (·.2)
    if a.bad || live.any (fun x => isNan32 x.1 || x.1 == 0x7F800000#32) then ({ a with bad := true, anyvis := true, poison := psn }, [])
    else
      let mn := live.foldl (fun m x => fmax m x.1) a.m
      if mn == fNegInf then ({ a with anyvis := true, poison := psn }, [])
      else
        let corr := fexp (fsub a.m mn)
        let ps := (List.zip sc vis).map fun p => if p.2 then (fexp (fsub p.1.1 mn), p.1.2) else (0#32, false)
        let pn := s.narrowProbs k 0 (c0 + 256 * t) i vis ps
        let l0 := (fmul a.l.1 corr, fmul a.l.2 corr)
        let l1 := pn.1.foldl (fun l x => knAdd l (elemF32 x)) l0
        let len := min (if (probFmt k).kind == .none then 128 else (probFmt k).block) (pageBlock k)
        let os := a.o.mapIdx fun d o =>
          let col := xs.map fun x => s.valElem k rd x d
          let acc := accumulate len ((c0 + 256 * t : Nat) : Int) pn.1 col {}
          (addPair (fmul o.1 corr, fmul o.2 corr) (resolve (acc.s, acc.c)) 0#32, acc.poison)
        ({ a with m := mn, l := l1, o := os.map (·.1), anyvis := true, poison := psn || os.any (·.2) }, pn.2)

/-- Blocks pairs of a chunk in walk order. -/
def tilesOf (k : Kernel) : List Nat := List.range (cdiv k.q.nblk 2)

/-- Local query rows of the band (R173, R175). -/
def bandRows (k : Kernel) (band : Nat) : List Nat := (List.range 48).map (band + ·) |>.filter (· < k.q.localLen)

/-- Whether some row of the band sees something of a tile (R173). -/
def tileSeen (s : State) (k : Kernel) (gl : List Nat × Nat × Bool) (rd t band : Nat) : Bool :=
  let c0 := chunkFirst k ((k.d.ringPos + k.d.ring - rd % k.d.ring) % k.d.ring)
  (bandRows k band).any fun i => (tilePositions k t).any fun x => (s.sees k gl (k.q.first + i) (c0 + x)).1

/-- Pages of this pier that round 0 of a band needs (R189). -/
def neededPages (s : State) (k : Kernel) (gl : List Nat × Nat × Bool) (band : Nat) : List Nat :=
  (tilesOf k).flatMap fun t =>
    if s.tileSeen k gl 0 t band then
      ([2 * t, 2 * t + 1].filter (· < k.q.nblk)).map fun b => k.q.pteBase + (k.d.layer * k.q.kvh + k.d.kvh) * k.q.nblk + b
    else []

/-! ### Rounds -/

/-- One round of the forward walk over every row of the band, with the counters touched. -/
def forwardRound (s : State) (k : Kernel) (gl : List Nat × Nat × Bool) (qo : OpDesc) (rd band : Nat) (rows : List AttnRow) : List AttnRow × List Nat :=
  (tilesOf k).foldl (fun (acc : List AttnRow × List Nat) t =>
    if s.tileSeen k gl rd t band then
      let x := acc.1.mapIdx fun n a => s.attendTile k gl qo rd t (band + n) a
      (x.map (·.1), acc.2 ++ x.flatMap (·.2))
    else acc) (rows, [])

/-- A row's statistics record (R178). -/
def writeStats (s : State) (k : Kernel) (i : Nat) (m l lse : F32) (flags : Nat) (p : Bool) : State :=
  s.writeBy k.gv (k.d.stats + 16 * i) ((natLE 16 (m.toNat * 2 ^ 96 + l.toNat * 2 ^ 64 + lse.toNat * 2 ^ 32 + flags)).map fun b => (b, p))

/-- A tensor row converted at the drain under the descriptor's control word and written (R177, R181). -/
def drainRow (s : State) (k : Kernel) (o : OpDesc) (i : Nat) (vs : List PV) : State :=
  match o.fmt with
  | none => s
  | some f0 =>
    let f := siteFmt .drain f0
    let ctl := siteCtl .drain (Ctl.ofWord s.inDebug k.d.oCtl)
    let q := s.convTo .drain o f ctl { seed := s.plan.seed, sid := streamId s.plan.leaf k.core 0x01, inst := ctl.inst, step := k.step } i 0 vs.length
    let out := q.run .one false [] [vs]
    let w := s.writeRows k.gd o f 0 (out.map fun x => (i, x))
    let arr := match k.r with | .b _ => Arr.b0 | _ => .f
    ((w.1.bumps (.drain k.core arr) (out.flatMap (·.counts))).bump (.drain k.core arr) POISONED w.2).faultIf (rowsPoisoned out) k.step FB_POISON

/-- write_row of the forward kernel (R177, R178). -/
def writeRowOut (s : State) (k : Kernel) (oo : OpDesc) (i : Nat) (a : AttnRow) : State :=
  let l := resolve a.l
  let bank := Bank.attn k.core
  if a.bad then
    ((s.writeStats k i nan32 nan32 nan32 4 a.poison).drainRow k oo i (List.replicate k.q.dh (.nan, a.poison))).bump bank TC_NONFINITE
  else if a.m == fNegInf then
    ((s.writeStats k i fNegInf 0#32 fNegInf (if a.anyvis then 3 else 1) a.poison).drainRow k oo i (List.replicate k.q.dh (.zero, a.poison))).bump bank TC_EMPTY
  else
    let lse := fadd a.m (fln l)
    (s.writeStats k i a.m l lse 0 a.poison).drainRow k oo i (a.o.map fun o => (f32 (fdiv (resolve o) l), a.poison))

/-! ### Backward (R181, R182) -/

def statAt (s : State) (k : Kernel) (i : Nat) : (Nat × Bool) := (s.nat (k.d.stats + 16 * i) 16, s.poisoned (k.d.stats + 16 * i) 16)

/-- The row dot product of dO with O. -/
def rowDot (s : State) (dout oo : OpDesc) (n i : Nat) : F32 × Bool :=
  let xs := (List.range n).map fun d => (s.valueAt dout i d, s.valueAt oo i d)
  (resolve (xs.foldl (fun p x => knAdd p (fmul (rne32 x.1.1) (rne32 x.2.1))) pair0), xs.any fun x => x.1.2 || x.2.2)

/-- One key tile of one backward row: narrowed probabilities, narrowed g and the row's dQ after the tile. -/
def backTile (s : State) (k : Kernel) (gl : List Nat × Nat × Bool) (qo dout dqo : OpDesc) (rd t i : Nat) (a : AttnRow) :
    AttnRow × List OpElem × List OpElem × List Nat :=
  let c0 := chunkFirst k ((k.d.ringPos + k.d.ring - rd % k.d.ring) % k.d.ring)
  let xs := tilePositions k t
  let seen := xs.map fun x => s.sees k gl (k.q.first + i) (c0 + x)
  let vis := seen.map (·.1)
  let st := s.statAt k i
  let empty := bitOf st.1 0
  if empty || !vis.any id then (a, [], [], [])
  else
    let nonf := bitOf st.1 2
    let lse := BitVec.ofNat 32 (fld st.1 63 32)
    let dor := s.loadLine dout false true (i : Int) 0 k.q.dh
    let ps := (List.zip xs vis).map fun p =>
      if p.2 then (if nonf then (nan32, st.2) else let z := s.score k qo rd i p.1; (fexp (fsub z.1 lse), z.2 || st.2)) else (0#32, false)
    let pn := s.narrowProbs k 1 (c0 + 256 * t) i vis ps
    let blk := min (blockOf dout false) (if k.d.g12 then 128 else 1)
    let gs := (List.zip xs (List.zip vis pn.1)).map fun p =>
      if p.2.1 then
        let dp := accumulate blk 0 dor ((List.range k.q.dh).map fun d => s.valElem k rd p.1 d) {}
        (f32 (fmul (fmul (elemF32 p.2.2) (fsub (resolve (dp.s, dp.c)) a.dd)) k.d.alpha), dp.poison || p.2.2.poison)
      else (Ext.zero, false)
    -- g narrowed under o_ctl in the element format of dQ (log 24)
    let f0 : Fmt := dqo.fmt.getD { elem := .bf16, kind := .none, block := 128, rot := 0, smooth := false, outlier := false }
    let f := siteFmt .drain { f0 with rot := 0, smooth := false, outlier := false }
    let ctl := siteCtl .drain (Ctl.ofWord s.inDebug k.d.oCtl)
    let q : Conv := { elem := f.elem, kind := f.kind, block := f.block, rot := 0, ctl := ctl, raw32 := true
                      rand := { seed := s.plan.seed, sid := streamId s.plan.leaf k.core 0x01, inst := ctl.inst, step := k.step }
                      col0 := c0 + 256 * t, row0 := i, inner := k.q.total }
    let go := q.narrowRow .one false 0 (vis.map not) gs
    let gn := go.cells.mapIdx fun j c =>
      let sc := if f.kind == .none then Ext.one else f.kind.value (go.scales.getD ((c0 + 256 * t + j) / f.block - (c0 + 256 * t) / f.block) (0, false)).1
      let v := f.elem.decode c.code
      if vis.getD j false then { val := v, scale := sc, code := c.code, absent := !sc.isNan && (v.isZero || sc.isZero), poison := c.poison || c.own : OpElem } else {}
    let len := min (if f.kind == .none then 128 else f.block) (if k.d.g12 then 128 else 1)
    let os := a.o.mapIdx fun d o =>
      let acc := accumulate len ((c0 + 256 * t : Nat) : Int) gn (xs.map fun x => s.keyElem k rd x d) {}
      (addPair o (resolve (acc.s, acc.c)) 0#32, acc.poison)
    ({ a with o := if nonf then a.o.map fun _ => (nan32, 0#32) else os.map (·.1), bad := a.bad || nonf, anyvis := true,
              poison := a.poison || seen.any (·.2) || os.any (·.2) || st.2 }, pn.1, gn, pn.2 ++ go.counts)

/-- The band's partial pairs of one tile added into the pairs at an address (R182): `which` picks g^T q or pn^T dO. -/
def addPairs (s : State) (k : Kernel) (base xs0 : Nat) (rows : List Nat) (src : OpDesc) (es : List (List OpElem)) (n : Nat) : State :=
  (List.range n).foldl (fun s j => (List.range k.q.dh).foldl (fun (s : State) d =>
    let part := (List.zip rows es).foldl (fun (p : (F32 × F32) × Bool) re =>
      match re.2[j]? with
      | none => p
      | some e =>
        let v := s.valueAt src re.1 d
        if e.absent && !e.poison then p
        else (addPair p.1 (rne32 ((e.val.mul e.scale).mul v.1)) 0#32, p.2 || e.poison || v.2)) (pair0, false)
    let a := base + 8 * (k.q.dh * (xs0 + j) + d)
    let o := s.f32At a
    let c := s.f32At (a + 4)
    let r := addPair (o.1, c.1) part.1.1 part.1.2
    let psn := part.2 || o.2 || c.2
    (s.writeBy k.gv a ((natLE 4 r.1.toNat ++ natLE 4 r.2.toNat).map fun b => (b, psn))).faultIf psn k.step FB_POISON) s) s

/-- Where the dK pairs of the chunk of a round lie; the dV pairs follow (R182, R184). -/
def pairBase (k : Kernel) (rd : Nat) : Nat := if rd == 0 then k.d.dkv else ringBuffer k rd + 0x10000 * k.q.nblk

/-- Positions of the pair blocks: local length for this pier's own chunk, whole blocks in a receive buffer. -/
def pairCount (k : Kernel) (rd : Nat) : Nat := if rd == 0 then k.q.localLen else 128 * k.q.nblk

def backwardRound (s : State) (k : Kernel) (gl : List Nat × Nat × Bool) (qo dout dqo : OpDesc) (rd band : Nat) (rows : List AttnRow) : State × List AttnRow :=
  (tilesOf k).foldl (fun (acc : State × List AttnRow) t =>
    if s.tileSeen k gl rd t band then
      let x := acc.2.mapIdx fun n a => s.backTile k gl qo dout dqo rd t (band + n) a
      let is := (List.range acc.2.length).map (band + ·)
      let n := min (tilePositions k t).length (pairCount k rd - 256 * t)
      let base := pairBase k rd
      let dvBase := base + 8 * k.q.dh * pairCount k rd
      let s1 := acc.1.addPairs k dvBase (256 * t) is dout (x.map (·.2.1)) n
      let s2 := s1.addPairs k base (256 * t) is qo (x.map (·.2.2.1)) n
      (s2.bumps (.drain k.core .b0) (x.flatMap (·.2.2.2)), x.map (·.1))
    else acc) (s, rows)

/-! ### The kernel command (R174) -/

def kernelOf (s : State) (r : SRef) (w : IWord) : Kernel :=
  let v := s.descNat r w.didx
  let q := s.seqSlot (fld v 511 504)
  { d := AttnDesc.ofNat v q.dh, q := q, core := coreOf r, step := (s.stream r).step, r := r, dbase := (s.ctx r).dbase }

def kernelOp (s : State) (k : Kernel) (i : Nat) : OpDesc := OpDesc.ofNat (s.nat (k.dbase + 64 * i) 64)

/-- A kernel clamped to Null at run time (R174). -/
def kernelNull (k : Kernel) : Bool := k.q.total == 0 || k.d.g12 != k.q.g12 || k.d.layer ≥ k.q.layers || k.d.kvh ≥ k.q.kvh

/-- The rows a kernel starts with. -/
def kernelStart (s : State) (k : Kernel) (band : Nat) : List AttnRow :=
  (bandRows k band).map fun i =>
    let base : AttnRow := { m := fNegInf, l := pair0, o := List.replicate k.q.dh pair0, bad := false, anyvis := false, poison := false }
    if k.d.backward then
      let dd := s.rowDot (s.kernelOp k k.d.doOp) (s.kernelOp k k.d.oOp) k.q.dh i
      { base with dd := dd.1, poison := dd.2 }
    else base

/-- One round of a kernel over a band: the pages it needs looked up, its tiles walked. -/
def kernelRound (s : State) (k : Kernel) (gl : List Nat × Nat × Bool) (round band : Nat) (need : List Nat) (rows : List AttnRow) : State × List AttnRow :=
  let qo := s.kernelOp k k.d.qOp
  let miss := (need.filter fun e => let p := s.pageEntry e; p.state == .dropped && p.fill != 0).length
  let skipped := ((tilesOf k).filter fun i => !s.tileSeen k gl round i band).length
  let s1 := ((s.bump .page PC_MISS miss).faultIf (miss != 0) k.step FB_POISON).bump (.attn k.core) TC_SKIPPED skipped
  if k.d.backward then s1.backwardRound k gl qo (s.kernelOp k k.d.doOp) (s.kernelOp k k.d.dqOp) round band rows
  else let y := s1.forwardRound k gl qo round band rows; (s1.bumps (.drain k.core .f) y.2, y.1)

/-- The rows of a band written at the end of the walk. -/
def kernelEnd (s : State) (k : Kernel) (band : Nat) (rows : List AttnRow) : State :=
  rows.zipIdx.foldl (fun (t : State) a =>
    let i := band + a.2
    if k.d.backward then t.drainRow k (s.kernelOp k k.d.dqOp) i (a.1.o.map fun o => (f32 (resolve o), a.1.poison))
    else t.writeRowOut k (s.kernelOp k k.d.oOp) i a.1) s

/-- The kernel at the head of a stream walks its next round; after the last round it writes its rows and completes.
Round 0 waits until the pages it needs are in; the kernel holds a lease while it runs (R174, R180, R183, R189, R190). -/
def doKernel (s : State) (r : SRef) (w : IWord) : State :=
  let t := s.stream r
  let k := s.kernelOf r w
  let lh := (k.d.slot, k.d.layer, k.d.kvh)
  if kernelNull k then s.nullInstr r w 112
  else if s.arrayHeld k.core then s.setStream r { t with phase := .waitEngine }
  else
    let gl := s.globalList k.q
    let band : Nat := (max ((min k.d.qOff 2097151 : Int) + k.d.dq0 * t.index 0) 0).toNat
    let ks : KernelSt × State := match aget? s.kernels r with
      | some x => (x, s)
      | none =>
        let s1 := (s.takeLease lh).bump (.attn k.core) TC_GLOBAL gl.2.1
        ({ round := 0, band := band, rows := s.kernelStart k band }, s1)
    let s0 := ks.2
    let st := ks.1
    let need := if st.round == 0 then s0.neededPages k gl st.band else []
    let away := need.filter fun e => let p := s0.pageEntry e; p.state == .spilled || (p.state == .flight && p.inward)
    if !away.isEmpty then
      let s1 := away.foldl (fun (s : State) e => if (s.pageEntry e).state == .spilled then s.startFetch e else s) s0
      { s1 with kernels := aset s1.kernels r st }.setStream r { t with phase := .waitEngine }
    else
      let x := s0.kernelRound k gl st.round st.band need st.rows
      if st.round + 1 < k.d.ring then
        { x.1 with kernels := aset x.1.kernels r { st with round := st.round + 1, rows := x.2 } }.setStream r { t with phase := .waitEngine }
      else
        let s2 := x.1.kernelEnd k st.band x.2
        let s3 := ({ s2 with kernels := adel s2.kernels r }).dropLease lh
        s3.setStream r (issued r (s3.stream r) w true false)

end State

end Sys2Proof.Machine
end

