-- ==== Sys2Proof/Machine/Routing.lean ====
section
/-! DEFINITION. The routing kernels ROUTE, COMBINE, COMBINE_BWD and ROUTE_BWD (R197 to R204, R209 to R211) and the
dispatch list. -/

namespace Sys2Proof.Machine

/-- A route descriptor (R199). -/
structure RouteDesc where
  xOp : Nat
  wgOp : Nat
  logit : Nat
  bias : Nat
  disp : Nat
  retOp : Nat
  yOp : Nat
  deOp : Nat
  dw : Nat
  ctlWord : Nat
  g : F32
  cap : Nat
  src : Nat
  ntok : Nat
  tokOff : Nat
  experts : Nat
  /-- k after its clamp -/
  k : Nat
  kCut : Bool
  gfunc : Nat
  overflow : Bool
  biasEn : Bool
  readLogits : Bool
  dz : Nat
deriving DecidableEq, Repr

def RouteDesc.ofNat (v : Nat) : RouteDesc :=
  let g := BitVec.ofNat 32 (fld v 207 176)
  let e := fld v 95 86 + 1
  let k := fld v 85 83 + 1
  { xOp := fld v 511 496, wgOp := fld v 495 480, logit := fld v 479 432, bias := fld v 431 384, disp := fld v 383 336,
    retOp := fld v 335 320, yOp := fld v 319 304, deOp := fld v 303 288, dw := fld v 287 240, ctlWord := fld v 239 208,
    g := if finite32 g then g else fOne, cap := fld v 175 160, src := fld v 159 144, ntok := fld v 143 128 + 1,
    tokOff := fld v 127 96, experts := e, k := min k e, kCut := decide (e < k), gfunc := fld v 82 81, overflow := bitOf v 80,
    biasEn := bitOf v 79, readLogits := bitOf v 78, dz := fld v 77 30 }

/-- Choice status codes (R204). -/
inductive ChoiceStatus where
  | kept | moved | dropped | none
deriving DecidableEq, Repr

def ChoiceStatus.code : ChoiceStatus → Nat | .kept => 0 | .moved => 1 | .dropped => 2 | .none => 3
def ChoiceStatus.ofCode (n : Nat) : ChoiceStatus := match n % 4 with | 0 => .kept | 1 => .moved | 2 => .dropped | _ => .none
/-- KEPT or MOVED. -/
def ChoiceStatus.sent : ChoiceStatus → Bool | .kept | .moved => true | _ => false

/-- One choice of a token (R203, R204). -/
structure Choice where
  expert : Nat := 0
  status : ChoiceStatus := .none
  slot : Nat := 0
  weight : F32 := 0#32
  poison : Bool := false
deriving DecidableEq, Repr

/-- Routing counters (R216). -/
abbrev RC_KEPT : Nat := 0
abbrev RC_MOVED : Nat := 1
abbrev RC_DROPPED : Nat := 2
abbrev RC_NONFINITE : Nat := 3
abbrev RC_UNSERVED : Nat := 4

/-! ### Selection and weights (R201, R202) -/

/-- Selection scores of a token. -/
def scores (d : RouteDesc) (z bias : List F32) : List F32 :=
  if d.biasEn then List.zipWith fadd z bias else z

/-- A NaN or +Inf score makes the token non-finite. -/
def scoreBad (u : F32) : Bool := isNan32 u || u == 0x7F800000#32

/-- Candidates in rank order: highest score first, ties to the lower index. -/
def ranking (u : List F32) : List Nat :=
  (((u.zipIdx).filter fun x => x.1 != fNegInf).mergeSort fun a b => !flt a.1 b.1).map (·.2)

/-- Largest finite value of a list. -/
def maxFinite (zs : List F32) : F32 := zs.foldl (fun m z => if finite32 z then fmax m z else m) fNegInf

def knSum (xs : List F32) : F32 := resolve (xs.foldl knAdd pair0)

/-- Weight of the expert with logit `z`, under the gate function of the group; `zs` are all logits of the token and
`chosen` those of its choices in rank order. -/
def gateWeight (d : RouteDesc) (zs chosen : List F32) (z : F32) : F32 :=
  match d.gfunc with
  | 0 =>
    let m := maxFinite zs
    fdiv (fmul d.g (fexp (fsub z m))) (knSum (zs.map fun y => fexp (fsub y m)))
  | 1 =>
    let m := chosen.foldl fmax fNegInf
    fdiv (fmul d.g (fexp (fsub z m))) (knSum (chosen.map fun y => fexp (fsub y m)))
  | 2 => fdiv (fmul d.g (fsigmoid z)) (knSum (chosen.map fsigmoid))
  | _ => fmul d.g (fsigmoid z)

/-- One token before capacity: its selected experts by rank, overflow candidates, weights by rank. -/
structure TokenSel where
  bad : Bool
  sel : List (Option Nat)
  spare : List Nat
  weights : List F32
  poison : Bool
deriving DecidableEq, Repr

def selectToken (d : RouteDesc) (z bias : List F32) (poison : Bool) : TokenSel :=
  let u := scores d z bias
  if u.any scoreBad then { bad := true, sel := List.replicate d.k none, spare := [], weights := List.replicate d.k 0#32, poison := poison }
  else
    let r := ranking u
    let top := r.take d.k
    let zc := top.map fun e => z.getD e 0#32
    { bad := false, spare := (r.drop d.k).take 8, poison := poison
      sel := (List.range d.k).map fun i => top[i]?
      weights := (List.range d.k).map fun i => match top[i]? with | some e => gateWeight d z zc (z.getD e 0#32) | none => 0#32 }

/-! ### Capacity (R203) -/

/-- Slots assigned by expert, and the choices of the group at k × t + r. -/
structure CapSt where
  assigned : List Nat
  choices : List Choice
deriving DecidableEq, Repr

def hasRoom (d : RouteDesc) (c : CapSt) (e : Nat) : Bool := d.cap == 0 || c.assigned.getD e 0 < d.cap

/-- A choice given the next slot of an expert. -/
def takeSlot (c : CapSt) (i e : Nat) (st : ChoiceStatus) : CapSt :=
  { assigned := lset c.assigned e (· + 1)
    choices := lset c.choices i fun x => { x with expert := e, status := st, slot := c.assigned.getD e 0 } }

/-- One choice of the rank-major pass. -/
def placeChoice (d : RouteDesc) (toks : List TokenSel) (c : CapSt) (t r : Nat) : CapSt :=
  match toks[t]? with
  | none => c
  | some k =>
    match k.sel.getD r none with
    | none => c
    | some e =>
      let i := d.k * t + r
      if hasRoom d c e then takeSlot c i e .kept
      else
        let held := ((c.choices.drop (d.k * t)).take d.k).filterMap fun x => if x.status.sent then some x.expert else none
        match (if d.overflow then k.spare.find? fun o => hasRoom d c o && !held.contains o else none) with
        | some o => takeSlot c i o .moved
        | none => { c with choices := lset c.choices i fun x => { x with expert := e, status := .dropped } }

def capacityPass (d : RouteDesc) (toks : List TokenSel) : CapSt :=
  let c0 : CapSt := { assigned := List.replicate d.experts 0
                      choices := toks.flatMap fun k => k.weights.map fun w => { weight := w, poison := k.poison } }
  (List.range d.k).foldl (fun c r => (List.range d.ntok).foldl (fun c t => placeChoice d toks c t r) c) c0

/-! ### The dispatch list (R204) -/

def dispRecord (disp e : Nat) : Nat := disp + 64 + 8 * e
def dispChoice (disp experts i : Nat) : Nat := disp + 64 + 8 * experts + 8 * i
def dispRow (disp experts choices i : Nat) : Nat := disp + 64 + 8 * experts + 8 * choices + 4 * i

/-- Sums of a list before each of its members. -/
def prefixSums (xs : List Nat) : List Nat := (xs.foldl (fun (a : List Nat × Nat) x => (a.1 ++ [a.2], a.2 + x)) ([], 0)).1

/-- Tokens, of those given by number, with no choice sent. -/
def unservedOf (k ntok : Nat) (cs : List Choice) : Nat :=
  ((List.range ntok).filter fun t => !(((cs.drop (k * t)).take k).any fun x => x.status.sent)).length

/-- A dispatch list header as stored. -/
def dispHeader (ntok experts k src cap : Nat) (cs : List Choice) (nonfinite : Nat) (accepted : Bool) : Nat :=
  let cnt (p : ChoiceStatus → Bool) : Nat := (cs.filter fun c => p c.status).length
  (ntok - 1) * 2 ^ 496 + (experts - 1) * 2 ^ 486 + (k - 1) * 2 ^ 483 + src * 2 ^ 467 + cap * 2 ^ 451 +
  cnt (·.sent) * 2 ^ 431 + cnt (· == .dropped) * 2 ^ 411 + cnt (· == .moved) * 2 ^ 391 + nonfinite * 2 ^ 374 +
  unservedOf k ntok cs * 2 ^ 357 + b2n accepted * 2 ^ 356

/-- A choice entry as stored. -/
def choiceEntry (c : Choice) : Nat :=
  (if c.status == .none then 0 else c.expert) * 2 ^ 54 + c.status.code * 2 ^ 52 + (if c.status.sent then c.slot else 0) * 2 ^ 36 + c.weight.toNat

/-- The bytes of a dispatch list, with poison: a weight carries that of its own token's logits, and everything that
capacity decides carries that of any logit of the group (R265). -/
def dispBytes (d : RouteDesc) (c : CapSt) (nonfinite : Nat) : List (Byte × Bool) :=
  let p := c.choices.any (·.poison)
  let mark (q : Bool) (bs : List Byte) : List (Byte × Bool) := bs.map fun b => (b, q)
  let offs := prefixSums c.assigned
  let rows := (List.range d.experts).flatMap fun e =>
    (((c.choices.zipIdx).filter fun x => x.1.status.sent && x.1.expert == e).mergeSort fun a b => a.1.slot ≤ b.1.slot).map fun x =>
      (x.2 / d.k) * 2 ^ 16 + (x.2 % d.k) * 2 ^ 13
  mark p (natLE 64 (dispHeader d.ntok d.experts d.k d.src d.cap c.choices nonfinite false)) ++
  (List.range d.experts).flatMap (fun e =>
    let a := c.assigned.getD e 0
    mark p (natLE 8 (a * 2 ^ 47 + a * 2 ^ 30 + offs.getD e 0 * 2 ^ 10))) ++
  c.choices.flatMap (fun x => mark x.poison (natLE 4 x.weight.toNat) ++ mark p ((natLE 8 (choiceEntry x)).drop 4)) ++
  rows.flatMap fun v => mark p (natLE 4 v)

namespace State

def readChoice (s : State) (disp experts i : Nat) : Choice :=
  let a := dispChoice disp experts i
  let v := s.nat a 8
  { expert := fld v 63 54, status := .ofCode (fld v 53 52), slot := fld v 51 36, weight := BitVec.ofNat 32 (fld v 31 0), poison := s.poisoned a 8 }

def routeNote (s : State) (disp : Nat) : RouteNote := aget s.routes disp { nonfinite := [], selected := [] }

/-- Stored choices of a list, in order. -/
def readChoices (s : State) (d : RouteDesc) : List Choice := (List.range (d.ntok * d.k)).map (s.readChoice d.disp d.experts)

/-- FP32 words of a row of a table, with poison. -/
def f32Row (s : State) (a n : Nat) : List (F32 × Bool) := (List.range n).map fun i => s.f32At (a + 4 * i)

/-- A logit formed on the trestle unit: accumulation blocks of 128 and no scales (R162, R200). -/
def gateLogit (s : State) (x w : OpDesc) (t e : Nat) : F32 × Bool :=
  let a := accumulate 128 0 (s.loadLine x false false (t : Int) 0 x.inner) (s.loadLine w false false (e : Int) 0 x.inner) {}
  (resolve (a.s, a.c), a.poison)

/-- A kernel that its descriptor makes null at run time. -/
def routeDesc (s : State) (r : SRef) (w : IWord) : RouteDesc := RouteDesc.ofNat (s.descNat r w.didx)

/-- The end of a routing kernel: issued, its work done. -/
def kernelIssued (s : State) (r : SRef) (w : IWord) (clamped : Bool := false) : State :=
  s.setStream r (issued r (s.stream r) w true clamped)

/-- Where a routing kernel runs: its descriptor's address, the base of the indices in it, core and step, the memory it
reads, and the agents that write its words and its rows. -/
structure RouteJob where
  at' : Nat
  dbase : Nat
  core : Nat
  step : Nat
  view : State
  g : Agent
  gv : Agent

def RouteJob.desc (j : RouteJob) (s : State) : RouteDesc := RouteDesc.ofNat (s.nat j.at' 64)
def RouteJob.op (j : RouteJob) (s : State) (i : Nat) : OpDesc := OpDesc.ofNat (s.nat (j.dbase + 64 * i) 64)

def routeJob (s : State) (r : SRef) (w : IWord) : RouteJob :=
  let k := coreOf r
  { at' := s.descAddr r w.didx, dbase := (s.ctx r).dbase, core := k, step := (s.stream r).step, view := s.viewOf k, g := .router k, gv := .vec k }

/-- ROUTE (R200 to R204). -/
def routeWork (s : State) (j : RouteJob) : State :=
  let core := j.core
  let g := j.g
  let d := j.desc s
  let v := j.view
  let xo := j.op s d.xOp
  let wo := j.op s d.wgOp
  let z : List (List (F32 × Bool)) := (List.range d.ntok).map fun t =>
    if d.readLogits then v.f32Row (d.logit + 4 * (d.experts * t)) d.experts
    else (List.range d.experts).map fun e => v.gateLogit xo wo (d.tokOff + t) e
  let bias := if d.biasEn then v.f32Row d.bias d.experts else []
  let toks := z.map fun row => selectToken d (row.map (·.1)) (bias.map (·.1)) (row.any (·.2) || bias.any (·.2))
  let bad := (toks.zipIdx.filter (·.1.bad)).map (·.2)
  let c := capacityPass d toks
  let s1 := s.noteReads ((if d.readLogits then [(d.logit, 4 * d.experts * d.ntok)] else [(xo.base + d.tokOff * xo.stride, d.ntok * xo.stride), (wo.base, d.experts * wo.stride)]) ++
    (if d.biasEn then [(d.bias, 4 * d.experts)] else []))
  let s2 := if d.readLogits then s1 else
    (z.flatten.zipIdx).foldl (fun (s : State) x => s.writeBy g (d.logit + 4 * x.2) ((natLE 4 x.1.1.toNat).map fun b => (b, x.1.2))) s1
  let s3 := s2.writeBy g d.disp (dispBytes d c bad.length)
  let s4 := { s3 with routes := aset s3.routes d.disp { nonfinite := bad, selected := toks.flatMap TokenSel.sel } }
  let cnt (p : ChoiceStatus) : Nat := (c.choices.filter fun x => x.status == p).length
  let b := Bank.routing core
  let s5 := ((((s4.bump b RC_KEPT (cnt .kept)).bump b RC_MOVED (cnt .moved)).bump b RC_DROPPED (cnt .dropped)).bump b RC_NONFINITE bad.length).bump
    b RC_UNSERVED (unservedOf d.k d.ntok c.choices)
  let s6 := s5.faultIf (toks.any (·.poison)) j.step FB_POISON
  if d.kCut then s6.report { kind := 1, clamp := CL_SAT, widthM1 := 2, bitOff := 83, index := j.at' / 64,
                             supplied := fld (s.nat j.at' 64) 85 83, used := d.k - 1 } else s6

def doRoute (s : State) (r : SRef) (w : IWord) : State := (s.routeWork (s.routeJob r w)).kernelIssued r w (s.routeDesc r w).kCut

/-! ### Combine and its gradients (R209, R210) -/

/-- The format and control word of an ATREST conversion without a tensor scale of its own. -/
def atRestFmt (s : State) (ctlWord : Nat) (f0 : Fmt) : Fmt × Ctl :=
  let f := siteFmt .atrest f0
  (if f.kind == .e4m3t then { f with kind := .e4m3 } else f, { siteCtl .atrest (Ctl.ofWord s.inDebug ctlWord) with dynamic := false })

/-- One row narrowed as an ATREST conversion of a core. -/
def atRestRow (s : State) (core step ctlWord : Nat) (o : OpDesc) (f0 : Fmt) (x : Nat × List PV) : List RowOut :=
  let p := s.atRestFmt ctlWord f0
  let rand : RandSite := { seed := s.plan.seed, sid := streamId s.plan.leaf core 0x02, inst := p.2.inst, step := step }
  (s.convTo .atrest o p.1 p.2 rand x.1 0 x.2.length).run .one false [] [x.2]

/-- Narrowed rows written, with the counters of a core's ATREST bank. -/
def atRestPut (s : State) (core step ctlWord : Nat) (o : OpDesc) (f0 : Fmt) (out : List (Nat × RowOut)) (g : Agent) : State :=
  let f := (s.atRestFmt ctlWord f0).1
  let flat := out.filter fun x => x.1 < o.rows
  let w := s.writeRows g o f 0 flat
  let s1 := if f0.kind == .e4m3t then (w.1.writeBy g o.tscale ((natLE 4 fOne.toNat).map fun b => (b, false))).report
      { kind := 1, clamp := CL_DEFAULT, widthM1 := 1, bitOff := 455, index := o.base, supplied := 3, used := 2 } else w.1
  let s2 := if o.zmapEn then
      match flat with
      | [] => s1
      | x :: _ => s1.writeZmap g o.zmapAddr o f x.1 0 o.inner flat
    else s1
  let inv := if f.smooth then smoothInvalid (s.smoothVec o 0 o.inner) else 0
  let bank := Bank.atrest core
  (((s2.bumps bank (flat.flatMap (·.2.counts))).bump bank POISONED w.2).bump bank SCALE_INVALID inv).faultIf
    (rowsPoisoned (flat.map (·.2))) step FB_POISON

/-- Rows narrowed as an ATREST conversion of a core and written. -/
def atRestRows (s : State) (core step ctlWord : Nat) (o : OpDesc) (rows : List (Nat × List PV)) (g : Agent := .vec core) : State :=
  match o.fmt with
  | none => s
  | some f0 => s.atRestPut core step ctlWord o f0 (rows.flatMap fun x => (s.atRestRow core step ctlWord o f0 x).map fun y => (x.1, y)) g

/-- One output row of COMBINE. -/
def combineRow (s : State) (d : RouteDesc) (ret : OpDesc) (bad : Bool) (cs : List Choice) (t n : Nat) : List PV :=
  let mine := ((cs.drop (d.k * t)).take d.k).zipIdx
  let pois := mine.any (·.1.poison)
  (List.range n).map fun c =>
    if bad then (.nan, pois)
    else
      let terms := (mine.filter fun x => x.1.status.sent).map fun x =>
        let e := s.valueAt ret (d.k * t + x.2) c
        (rne32 ((f32 x.1.weight).mul e.1), e.2)
      (f32 (knSum (terms.map (·.1))), pois || terms.any (·.2))

def tokenRows (d : RouteDesc) (o : OpDesc) : List (Nat × Nat) := [(o.base + d.tokOff * o.stride, d.ntok * o.stride)]
def choiceRows (d : RouteDesc) (o : OpDesc) : List (Nat × Nat) := [(o.base, d.k * d.ntok * o.stride)]
def dispReads (d : RouteDesc) : List (Nat × Nat) := [(d.disp, 64 + 8 * d.experts + 8 * d.ntok * d.k)]

/-- COMBINE (R209). -/
def combineWork (s : State) (j : RouteJob) : State :=
  let d := j.desc s
  let v := j.view
  let ret := j.op s d.retOp
  let y := j.op s d.yOp
  let cs := v.readChoices d
  let bad := (s.routeNote d.disp).nonfinite
  let rows := (List.range d.ntok).map fun t => (d.tokOff + t, v.combineRow d ret (bad.contains t) cs t y.inner)
  let s1 := s.noteReads (dispReads d ++ choiceRows d ret)
  s1.atRestRows j.core j.step d.ctlWord y rows j.gv

def doCombine (s : State) (r : SRef) (w : IWord) : State := (s.combineWork (s.routeJob r w)).kernelIssued r w

/-- COMBINE_BWD (R210). -/
def combineBwdWork (s : State) (j : RouteJob) : State :=
    let d := j.desc s
    let v := j.view
    let ret := j.op s d.retOp
    let dy := j.op s d.yOp
    let de := j.op s d.deOp
    let cs := v.readChoices d
    let bad := (s.routeNote d.disp).nonfinite
    let rows := (cs.zipIdx.filter fun x => x.1.status.sent).map fun x =>
      (x.2, (List.range de.inner).map fun c =>
        let g := v.valueAt dy (d.tokOff + x.2 / d.k) c
        ((f32 (rne32 ((f32 x.1.weight).mul g.1)), g.2 || x.1.poison) : PV))
    let dws := cs.zipIdx.map fun x =>
      if bad.contains (x.2 / d.k) then (nan32, x.1.poison)
      else if x.1.status.sent then
        let ts := (List.range dy.inner).map fun c =>
          let g := v.valueAt dy (d.tokOff + x.2 / d.k) c
          let e := v.valueAt ret x.2 c
          (rne32 (g.1.mul e.1), g.2 || e.2)
        (knSum (ts.map (·.1)), x.1.poison || ts.any (·.2))
      else (0#32, x.1.poison)
    let s1 := (s.noteReads (dispReads d ++ choiceRows d ret ++ tokenRows d dy)).atRestRows j.core j.step d.ctlWord de rows j.gv
    let s2 := dws.zipIdx.foldl (fun (s : State) x => s.writeBy j.g (d.dw + 4 * x.2) ((natLE 4 x.1.1.toNat).map fun b => (b, x.1.2))) s1
    s2.faultIf (dws.any (·.2)) j.step FB_POISON

/-- COMBINE_BWD at the head: a Null clamp in an F-stream (R197). -/
def doCombineBwd (s : State) (r : SRef) (w : IWord) : State :=
  match r with
  | .f _ => s.nullInstr r w 104
  | _ => (s.combineBwdWork (s.routeJob r w)).kernelIssued r w

/-! ### Gradient of the gate weights (R211) -/

/-- The logit gradients of one token: logits, its choices (selected expert, weight, dw) by rank. -/
def tokenDz (d : RouteDesc) (z : List F32) (cs : List (Nat × F32 × F32)) : List F32 :=
  let zc := cs.map fun x => z.getD x.1 0#32
  match d.gfunc with
  | 0 =>
    let sum := knSum ((cs.mergeSort fun a b => a.1 ≤ b.1).map fun x => fmul x.2.1 x.2.2)
    z.zipIdx.map fun ze =>
      let p := fdiv (gateWeight d z zc ze.1) d.g
      let own := match cs.find? fun x => x.1 == ze.2 with | some x => fmul x.2.1 x.2.2 | none => 0#32
      fsub own (fmul p sum)
  | 1 =>
    let sum := knSum (cs.map fun x => fdiv (fmul x.2.1 x.2.2) d.g)
    z.zipIdx.map fun ze => match cs.find? fun x => x.1 == ze.2 with | some x => fmul x.2.1 (fsub x.2.2 sum) | none => 0#32
  | 2 =>
    let tot := knSum (zc.map fsigmoid)
    let sum := knSum (cs.map fun x => fdiv (fmul (fsigmoid (z.getD x.1 0#32)) x.2.2) tot)
    z.zipIdx.map fun ze =>
      match cs.find? fun x => x.1 == ze.2 with
      | some x => let g := fsigmoid ze.1; fmul (fdiv (fmul (fmul d.g g) (fsub fOne g)) tot) (fsub x.2.2 sum)
      | none => 0#32
  | _ =>
    z.zipIdx.map fun ze =>
      match cs.find? fun x => x.1 == ze.2 with
      | some x => let g := fsigmoid ze.1; fmul (fmul (fmul x.2.2 d.g) g) (fsub fOne g)
      | none => 0#32

/-- ROUTE_BWD (R211). -/
def routeBwdWork (s : State) (j : RouteJob) : State :=
    let d := j.desc s
    let v := j.view
    let note := s.routeNote d.disp
    let cs := v.readChoices d
    let out : List (List (F32 × Bool)) := (List.range d.ntok).map fun t =>
      let z := v.f32Row (d.logit + 4 * (d.experts * t)) d.experts
      let mine := ((cs.drop (d.k * t)).take d.k).zipIdx
      let dw := mine.map fun x => v.f32At (d.dw + 4 * (d.k * t + x.2))
      let p := z.any (·.2) || mine.any (·.1.poison) || dw.any (·.2)
      if note.nonfinite.contains t then List.replicate d.experts (nan32, p)
      else
        let chosen := (List.zip mine dw).filterMap fun x =>
          if x.1.1.status == .none then none
          else some ((note.selected.getD (d.k * t + x.1.2) none).getD x.1.1.expert, x.1.1.weight, x.2.1)
        (tokenDz d (z.map (·.1)) chosen).map fun y => (y, p)
    let s1 := s.noteReads (dispReads d ++ [(d.logit, 4 * d.experts * d.ntok), (d.dw, 4 * d.k * d.ntok)])
    let s2 := out.flatten.zipIdx.foldl (fun (s : State) x => s.writeBy j.g (d.dz + 4 * x.2) ((natLE 4 x.1.1.toNat).map fun b => (b, x.1.2))) s1
    s2.faultIf (out.flatten.any (·.2)) j.step FB_POISON

/-- ROUTE_BWD at the head: a Null clamp in an F-stream (R197). -/
def doRouteBwd (s : State) (r : SRef) (w : IWord) : State :=
  match r with
  | .f _ => s.nullInstr r w 104
  | _ => (s.routeBwdWork (s.routeJob r w)).kernelIssued r w

/-- A VRUN at the head of a stream whose kernel code is the one given (R174, R197). -/
def atKernel (s : State) (r : SRef) (code : Nat) (k : IWord → State) : State :=
  s.atHead r OP_VRUN fun _ w => if fld w 111 104 == code then k w else s

end State

end Sys2Proof.Machine
end

