-- ==== Sys2Proof/Machine/Trestle.lean ====
section
/-! DEFINITION. Trestle jobs: the job list of a cluster slot and the products of the trestle unit (R162 to R167). -/

namespace Sys2Proof.Machine

/-- A trestle context (R164). -/
structure TrestleCtx where
  dbase : Nat
  count : Nat
  active : Bool
deriving DecidableEq, Repr

def TrestleCtx.ofNat (v : Nat) : TrestleCtx :=
  { dbase := fld v 255 208, count := min (fld v 207 197) 1024, active := bitOf v 196 }

/-- The wait and signal fields shared by a trestle job entry and a collective list entry (R164, R295). -/
structure ListEntry where
  desc : Nat
  collId : Nat
  waitVal : Nat
  sigEn : Bool
  waitGE : Bool
  waitPar : Bool
  sigPar : Bool
  sigId : Nat
  waitId : Nat
deriving DecidableEq, Repr

/-- wait_cond out of range takes the default GE. -/
def ListEntry.ofNat (v : Nat) : ListEntry :=
  { desc := fld v 127 112, collId := fld v 111 96, waitVal := fld v 63 50, sigEn := bitOf v 48, waitGE := fld v 47 46 != 0,
    waitPar := bitOf v 45, sigPar := bitOf v 44, sigId := fld v 43 28, waitId := fld v 27 12 }

namespace State

def trestleCtx (s : State) (c : Nat) : TrestleCtx := TrestleCtx.ofNat (s.nat (TRESTLE_CTX + 32 * c) 32)
def trestleJob (s : State) (c i : Nat) : ListEntry := ListEntry.ofNat (s.nat (TRESTLE_JOBS + 0x4000 * c + 16 * i) 16)
def trestleOf (s : State) (c : Nat) : TrestleSt := aget s.trestle c {}

/-- The wait of a list entry in a step (R141, with d = 0 under R139). -/
def entryReady (s : State) (e : ListEntry) (step : Nat) : Bool :=
  !e.waitGE || s.syncCount (resolveId e.waitPar e.waitId step 0) ≥ e.waitVal

/-- The signal of a list entry (R126). -/
def entrySignal (s : State) (e : ListEntry) (step : Nat) : State :=
  if e.sigEn then s.deliverSig { id := resolveId e.sigPar e.sigId step 0 } step else s

/-- The list of a step starts once the unit has finished the step before and the pier has begun this one (R166). -/
def trestleStep (s : State) (c : Nat) : TrestleSt :=
  let t := s.trestleOf c
  if t.running then t
  else
    let next := if t.pos = 0 then s.job.startStep else t.step + 1
    if s.job.begun.contains next then { step := next, running := true, pos := 0 } else t

/-- The bytes a trestle unit reads: its cluster memory (R165). -/
def clusterView (s : State) (c : Nat) : State :=
  { s with fp := { s.fp with coreBind := [], clusterBind := s.fp.clusterBind.filter (·.1 == c) }, ddrBytes := 0 }

/-- One element of a trestle product, its poison, and the value after alpha and bias (R162, R165). -/
def trestleElem (s : State) (ro co : OpDesc) (d : DrainDesc) (p : Place) (i j : Nat) : F32 × Bool :=
  let a := accumulate 128 p.k (s.loadLine ro false false (i : Int) p.k p.kLen) (s.loadLine co false false (j : Int) p.k p.kLen) {}
  let y := fmul (resolve (a.s, a.c)) d.alpha
  let b := if d.biasEn then s.f32At (d.biasAddr + 4 * j) else (0#32, false)
  (if d.biasEn then fadd y b.1 else y, a.poison || b.2)

/-- The tile of a job written as FP32 (R165); an output of another element code is taken as FP32. -/
def trestleTile (s : State) (c : Nat) (dbase tdesc step : Nat) : State :=
  let td := TileDesc.ofNat (s.nat (dbase + 64 * tdesc) 64)
  let v := s.clusterView c
  let ro := OpDesc.ofNat (s.nat (dbase + 64 * td.rowOp) 64)
  let co := OpDesc.ofNat (s.nat (dbase + 64 * td.colOp) 64)
  let d := DrainDesc.ofNat (s.nat (dbase + 64 * td.drain) 64)
  let out := OpDesc.ofNat (trestleOut (s.nat d.outDesc 64))
  let p := td.place 0 0
  let rows := (List.range p.mLen).filterMap fun (i : Nat) => let r := p.m + i; if 0 ≤ r && r < out.rows then some r.toNat else none
  let cols := (List.range p.nLen).filterMap fun (j : Nat) => let q := p.n + j; if 0 ≤ q && q < out.inner then some q.toNat else none
  let s1 := s.noteReads ((rows.map fun r => (ro.base + r * ro.stride, ro.elem.rowBytes ro.inner)) ++
    (cols.map fun q => (co.base + q * co.stride, co.elem.rowBytes co.inner)) ++
    (if d.biasEn then cols.map fun q => (d.biasAddr + 4 * q, 4) else []))
  let cells := rows.flatMap fun r => cols.map fun q => (r, q, v.trestleElem ro co d p r q)
  let s2 := cells.foldl (fun (s : State) x =>
    s.writeBy (.trestle c) (out.base + x.1 * out.stride + 4 * x.2.1) ((natLE 4 x.2.2.1.toNat).map fun b => (b, x.2.2.2))) s1
  s2.faultIf (cells.any (·.2.2.2)) step FB_POISON

/-- The next job of a cluster slot's list, where its wait is satisfied: its tile, its signal, and the list's end. -/
def doTrestle (s : State) (c : Nat) : State :=
  let x := s.trestleCtx c
  let t := s.trestleStep c
  if !s.job.running || !x.active || !t.running || !s.clusterServed c then s
  else if t.pos < x.count then
    let e := s.trestleJob c t.pos
    if !s.entryReady e t.step then { s with trestle := aset s.trestle c t }
    else
      let s1 := s.trestleTile c x.dbase e.desc t.step
      let t1 : TrestleSt := { t with pos := t.pos + 1, running := decide (t.pos + 1 < x.count) }
      ({ s1 with trestle := aset s1.trestle c t1 }).entrySignal e t.step
  else { s with trestle := aset s.trestle c { t with running := false, pos := max 1 t.pos } }

end State

end Sys2Proof.Machine
end

