-- ==== Sys2Proof/Machine/Coll.lean ====
section
/-! DEFINITION. Collectives: descriptors, phases, strands and chains, the messages they exchange, and routed
collectives (R205 to R208, R295 to R308, R318). -/

namespace Sys2Proof.Machine

/-! ### Descriptors (R295, R298) -/

structure CollCtx where
  list : Nat
  dbase : Nat
  count : Nat
  active : Bool
  vstages : Nat
  micro : Nat
deriving DecidableEq, Repr

def CollCtx.ofNat (v : Nat) : CollCtx :=
  { list := fld v 255 208, dbase := fld v 207 160, count := min (fld v 159 147) 4096, active := bitOf v 146
    vstages := fld v 145 142 % 8 + 1, micro := fld v 141 130 + 1 }

/-- A collective descriptor (R298); hop 3 takes the default 0. -/
structure CollDesc where
  kind : Nat
  span : Handle
  srcOp : Nat
  dstOp : Nat
  ctlWord : Nat
  hop : Nat
  pairIn : Bool
  root : Nat
  scratch : Nat
  aux : Nat
  place : Nat
  home : Nat
  journal : Nat
  stage : Nat
  auxCount : Nat
deriving DecidableEq, Repr

def CollDesc.ofNat (v : Nat) : CollDesc :=
  { kind := fld v 511 508, span := Handle.ofNat (fld v 507 476), srcOp := fld v 475 460, dstOp := fld v 459 444
    ctlWord := fld v 443 412, hop := fld v 411 410 % 3, pairIn := bitOf v 409, root := fld v 408 397
    scratch := fld v 396 349, aux := fld v 348 301, place := fld v 300 253, home := fld v 252 205
    journal := fld v 204 157, stage := fld v 156 109, auxCount := fld v 108 89 }

abbrev CK_ALL_REDUCE : Nat := 1
abbrev CK_ORDERED : Nat := 2
abbrev CK_REDUCE_SCATTER : Nat := 3
abbrev CK_ALL_GATHER : Nat := 4
abbrev CK_BROADCAST : Nat := 5
abbrev CK_ALL_TO_ALL : Nat := 6
abbrev CK_ROUTED_FWD : Nat := 7
abbrev CK_ROUTED_RET : Nat := 8
abbrev CK_ROUTED_BWD : Nat := 9
abbrev CK_PERMUTE : Nat := 10

/-- Collective counters (R318). -/
abbrev OC_DONE : Nat := 0
abbrev OC_STAGED : Nat := 1
abbrev OC_CHECKSUM : Nat := 2
abbrev OC_WAIT : Nat := 3
abbrev OC_CHUNKS : Nat := 4
abbrev OC_RESENDS : Nat := 5

/-! ### Codes in a message -/

/-- Codes of a width packed without gaps, lowest first; a byte is poisoned with any code in it. -/
def packCodes (bits : Nat) (cs : List (Nat × Bool)) : List (Byte × Bool) :=
  let v := cs.foldr (fun c acc => c.1 % 2 ^ bits + acc * 2 ^ bits) 0
  (natLE (cdiv (bits * cs.length) 8) v).mapIdx fun i b =>
    let first := 8 * i / bits
    (b, ((cs.drop first).take ((8 * i + 7) / bits + 1 - first)).any (·.2))

def unpackCodes (bits n : Nat) (bs : List (Byte × Bool)) : List (Nat × Bool) :=
  let v := leNat (bs.map (·.1))
  (List.range n).map fun i =>
    let lo := bits * i
    ((v >>> lo) % 2 ^ bits, ((bs.drop (lo / 8)).take ((lo + bits - 1) / 8 + 1 - lo / 8)).any (·.2))

/-- A pair with poison. -/
abbrev PairP := (F32 × F32) × Bool

namespace State

/-! ### Geometry of a collective (R299, R300) -/

/-- Logical coordinates of a leaf's pier: a torus pier's by its ID, a spare's as roll call reports them (R289, R299). -/
def leafCoord (s : State) (p : Nat) : Nat → Nat :=
  match mapOf s.net.maps p with
  | some m => if m.spare then pmCoord m else fun d => match d with | 0 => p % 8 | 1 => p / 8 % 16 | _ => p / 128
  | none => fun d => match d with | 0 => p % 8 | 1 => p / 8 % 16 | _ => p / 128

end State

/-- A collective laid out over its leaves. A phase is a dimension, or none for the single ring of every leaf. -/
structure CollGeo where
  leaves : List Nat
  me : Nat
  coords : List (Nat × Nat × Nat)
  phases : List (Option Nat)
  ordered : Bool
deriving DecidableEq, Repr

namespace CollGeo

def n (g : CollGeo) : Nat := g.leaves.length

def coord (g : CollGeo) (l d : Nat) : Nat :=
  let c := g.coords.getD l (0, 0, 0)
  match d with | 0 => c.1 | 1 => c.2.1 | _ => c.2.2

/-- The ring of a leaf in a phase, in ascending coordinate. -/
def ring (g : CollGeo) (f l : Nat) : List Nat :=
  match g.phases.getD f none with
  | none => List.range g.n
  | some d =>
    (List.range 16).flatMap fun c => (List.range g.n).filter fun x =>
      g.coord x d == c && (List.range 3).all fun e => e == d || g.coord x e == g.coord l e

/-- Whether two leaves share their place in a phase. -/
def samePlace (g : CollGeo) (f a b : Nat) : Bool :=
  match g.phases.getD f none with | none => a == b | some d => g.coord a d == g.coord b d

/-- Whether a leaf lies on the chains of an owner in a phase: it shares the owner's place in every earlier one. -/
def onChain (g : CollGeo) (f l owner : Nat) : Bool := (List.range f).all fun e => g.samePlace e l owner

/-- + or − way of a strand (R300); one chain in ascending position for ALL_REDUCE_ORDERED. -/
def forward (g : CollGeo) (strand : Nat) : Bool := g.ordered || strand % 2 == 0

/-- Place of a leaf in its ring. -/
def placeIn (g : CollGeo) (f l : Nat) : Nat := (g.ring f l).findIdx (· == l)

/-- Place in a leaf's ring of the member at the owner's coordinate. -/
def ownerPlace (g : CollGeo) (f l owner : Nat) : Nat := (g.ring f l).findIdx fun x => g.samePlace f x owner

/-- The leaf `k` places on in the strand's direction. -/
def leafAfter (g : CollGeo) (f l strand k : Nat) : Nat :=
  let r := g.ring f l
  let i := g.placeIn f l
  r.getD ((if g.forward strand then i + k else i + r.length * k - k) % r.length) l

/-- Number q of a leaf on its chain, 1 to n_d (R301). -/
def chainPos (g : CollGeo) (f l strand owner : Nat) : Nat :=
  let nd := (g.ring f l).length
  let i := g.placeIn f l
  let j := g.ownerPlace f l owner
  let q := (if g.forward strand then i + nd - j else j + nd - i) % nd
  if q == 0 then nd else q

end CollGeo

namespace State

/-- The layout of a collective over its leaves: a box in phases x, y, z, and otherwise one ring of every leaf (R299). -/
def collGeo (s : State) (d : CollDesc) : CollGeo :=
  let ls := (s.leafSeq d.span).map (·.pier)
  let cs := ls.map fun p => let c := s.leafCoord p; (c 0, c 1, c 2)
  let me := (ls.findIdx? fun p => s.servedBy p == s.pierId).getD 0
  let vals (k : Nat) : List Nat := ((cs.map fun c => match k with | 0 => c.1 | 1 => c.2.1 | _ => c.2.2)).eraseDups
  let box := (vals 0).length * (vals 1).length * (vals 2).length == ls.length && cs.eraseDups.length == ls.length
  let ordered := d.kind == CK_ORDERED
  { leaves := ls, me := me, coords := cs, ordered := ordered
    phases := if ls.length ≤ 1 then [] else if ordered || !box || s.net.chain then [none]
      else ((List.range 3).filter fun k => (vals k).length > 1).map some }

def collOp (s : State) (r : CollRun) (i : Nat) : OpDesc := OpDesc.ofNat (s.nat (r.dbase + 64 * i) 64)

/-- The destination of a reduction. -/
def collDst (s : State) (r : CollRun) (i : Nat) : OpDesc := OpDesc.ofNat (reduceOut (s.nat (r.dbase + 64 * i) 64))

/-- N of a collective: elements or pairs of the source (R298, R300). -/
def collN (s : State) (r : CollRun) (d : CollDesc) : Nat :=
  let o := s.collOp r d.srcOp
  if d.pairIn then o.rows * o.inner / 2 else o.rows * o.inner

/-- Owner of an element (R300). -/
def ownerOf (d : CollDesc) (n total e : Nat) : Nat :=
  match d.kind with
  | 2 => n - 1
  | 3 => e * n / max total 1
  | _ => e / max (cdiv total n) 1

/-- The elements of one chain, ascending. -/
def chainElems (d : CollDesc) (n total strand owner : Nat) : List Nat :=
  (List.range total).filter fun e => e / 128 % 4 == strand && ownerOf d n total e == owner

/-- The chains that hold elements: strand and owner. -/
def chains (d : CollDesc) (n total : Nat) : List (Nat × Nat) :=
  (List.range 4).flatMap fun st => ((List.range n).filter fun o => !(chainElems d n total st o).isEmpty).map fun o => (st, o)

/-! ### The signature (R307) -/

def signature (s : State) (r : CollRun) (d : CollDesc) : Nat :=
  let dst := if d.kind ≤ 3 then s.collDst r d.dstOp else s.collOp r d.dstOp
  crc32c (natLE 2 r.coll ++ natLE 1 d.kind ++ natLE 8 (s.collN r d) ++ natLE 1 d.hop ++ natLE 1 (fld d.ctlWord 29 26) ++
    natLE 1 (fld dst.fmtField 4 0) ++ natLE 4 r.step)

/-! ### Sending a message (R305, R307) -/

/-- The port toward a neighbour that a COLL flit of a strand takes: the engine's die first. -/
def collPort (s : State) (pier strand : Nat) : Option Nat :=
  let ps := allPorts.filter fun p => s.portUp p && ((s.port p).nbr.map (·.pier)) == some pier
  match ps.find? fun p => p / 8 == strand / 2 with | some p => some p | none => ps.head?

/-- A collective message to a leaf, with its data CRC and signature: COLL flits where the two piers are joined by an UP
link, WRITE flits through staging otherwise; copies and routed rows always as WRITE flits. A message to this pier
itself is taken in with those that came early. -/
def collSend (s : State) (r : CollRun) (d : CollDesc) (pier strand : Nat) (hop : Bool) (part : CollPart) (data : List (Byte × Bool)) : State :=
  let g := s.collGeo d
  let h : CollHead := { coll := r.coll, step := r.step, src := g.me, part := part }
  let padded := data ++ List.replicate (4 * cdiv data.length 4 - data.length) (0#8, false)
  let crc := crc32c (padded.map (·.1))
  let msg := padded ++ ((natLE 4 crc) ++ natLE 4 (s.signature r d)).map fun b => (b, false)
  if pier == s.pierId then { s with coll := { s.coll with early := s.coll.early ++ [(h, pier, msg)] } }
  else match (if hop then s.collPort pier strand else none) with
  | some p =>
    let t := s.newTag (strand / 2)
    ((t.2.messageFlits FT_COLL pier 0 t.1 (.coll h) msg).foldl (fun u f => u.hold { port := some p, flit := f }) t.2).pump
  | none =>
    let s1 := if hop then s.bump .coll OC_STAGED else s
    s1.sendBytes pier 0 (strand / 2) (.coll h) msg

def collSendLeaf (s : State) (r : CollRun) (d : CollDesc) (leaf strand : Nat) (hop : Bool) (part : CollPart) (data : List (Byte × Bool)) : State :=
  s.collSend r d (s.servedBy ((s.collGeo d).leaves.getD leaf 0)) strand hop part data

/-! ### Runs -/

def setRun (s : State) (r : CollRun) : State :=
  { s with coll := { s.coll with runs := s.coll.runs.map fun x => if x.coll == r.coll && x.step == r.step then r else x } }

def findRun (s : State) (coll step : Nat) : Option CollRun := s.coll.runs.find? fun x => x.coll == coll && x.step == step

def onRun (s : State) (coll step : Nat) (f : CollRun → CollRun) : State :=
  match s.findRun coll step with | some r => s.setRun (f r) | none => s

/-! ### Terms, hops and results (R301, R302) -/

/-- Contribution of this pier to an element: its exact value rounded once, or the stored pair. -/
def contribution (s : State) (r : CollRun) (d : CollDesc) (e : Nat) : PairP :=
  let o := s.collOp r d.srcOp
  if d.pairIn then
    let a := s.f32At (o.base + 2 * e / o.inner * o.stride + 4 * (2 * e % o.inner))
    let b := s.f32At (o.base + (2 * e + 1) / o.inner * o.stride + 4 * ((2 * e + 1) % o.inner))
    ((a.1, b.1), a.2 || b.2)
  else
    let v := s.valueAt o (e / o.inner) (e % o.inner)
    ((rne32 v.1, 0#32), v.2)

/-- Address of an element's pair in scratch: its rank among the elements that end at this pier's place in the first
phase (R306). -/
def scratchAddr (s : State) (r : CollRun) (d : CollDesc) (e : Nat) : Nat :=
  let g := s.collGeo d
  let total := s.collN r d
  d.scratch + 8 * ((List.range e).filter fun x => g.samePlace 0 g.me (ownerOf d g.n total x)).length

def scratchPair (s : State) (r : CollRun) (d : CollDesc) (e : Nat) : PairP :=
  let a := s.scratchAddr r d e
  let x := s.f32At a
  let y := s.f32At (a + 4)
  ((x.1, y.1), x.2 || y.2)

def linkBank (strand : Nat) : Bank := .link (strand / 2)

/-- A value narrowed at LINK with the random byte of element e (R302). -/
def linkNarrow (s : State) (d : CollDesc) (el : Elem) (inst step e : Nat) (v : F32 × Bool) : RowOut :=
  let ctl := { Ctl.ofWord s.inDebug d.ctlWord with dynamic := false }
  let q : Conv :=
    { elem := el, kind := .none, block := 128, rot := 0, ctl := ctl
      rand := { seed := s.plan.seed, sid := streamId s.plan.leaf 0x850 0x04, inst := (ctl.inst + inst) % 65536, step := step }
      col0 := e, inner := 0, flat := some (0, false) }
  q.narrowRow .one false 0 [] [(f32 v.1, v.2)]

/-- Instance step of a phase: x, y and z take 0, 1 and 2 (R302). -/
def phaseInst (g : CollGeo) (f : Nat) : Nat := if g.ordered then 0 else match g.phases.getD f none with | some k => k | none => 0

/-- hop_encode of the pairs of a chain (R301), with the counters it touches. -/
def hopEncode (s : State) (r : CollRun) (d : CollDesc) (g : CollGeo) (f : Nat) (es : List Nat) (ps : List PairP) : List (Byte × Bool) × List Nat :=
  match d.hop with
  | 1 => (packCodes 32 (ps.map fun p => ((resolve p.1).toNat, p.2)), [])
  | 2 => (packCodes 64 (ps.map fun p => (p.1.1.toNat + p.1.2.toNat * 2 ^ 32, p.2)), [])
  | _ =>
    let rows := (List.zip es ps).map fun x => s.linkNarrow d .g12 (phaseInst g f) r.step x.1 (resolve x.2.1, x.2.2)
    (packCodes 12 (rows.map fun x => let c := x.cells.getD 0 { code := 0 }; (c.code, c.poison || c.own)), rows.flatMap (·.counts))

/-- hop_decode (R301). -/
def hopDecode (d : CollDesc) (n : Nat) (bs : List (Byte × Bool)) : List PairP :=
  match d.hop with
  | 1 => (unpackCodes 32 n bs).map fun c => ((BitVec.ofNat 32 c.1, 0#32), c.2)
  | 2 => (unpackCodes 64 n bs).map fun c => ((BitVec.ofNat 32 c.1, BitVec.ofNat 32 (c.1 / 2 ^ 32)), c.2)
  | _ => (unpackCodes 12 n bs).map fun c => ((rne32 (Elem.g12.decode c.1), 0#32), c.2)

/-- Scale blocks that a chain's elements touch, ascending. -/
def scaleBlocks (o : OpDesc) (f : Fmt) (es : List Nat) : List (Nat × Nat) := (es.map fun e => (e / o.inner, e % o.inner / f.block)).eraseDups

/-- The first hop of the first phase: source codes and scales unchanged, or the stored pair whole (R301). -/
def firstHop (s : State) (r : CollRun) (d : CollDesc) (es : List Nat) : List (Byte × Bool) :=
  let o := s.collOp r d.srcOp
  if d.pairIn then packCodes 64 (es.map fun e => let p := s.contribution r d e; (p.1.1.toNat + p.1.2.toNat * 2 ^ 32, p.2))
  else
    match o.fmt with
    | none => []
    | some f =>
      let codes := packCodes f.elem.bits (es.map fun e => s.codeAt f.elem (o.base + e / o.inner * o.stride) (e % o.inner))
      let scales := if f.kind == .none then [] else (scaleBlocks o f es).map fun b => s.byte (o.bscale + b.1 * o.blocks + b.2)
      let ts := if f.kind == .e4m3t then s.bytes o.tscale 4 else []
      codes ++ scales ++ ts

/-- What the receiver of a first hop decodes: the sender's values exactly, rounded once (R301). -/
def firstDecode (s : State) (r : CollRun) (d : CollDesc) (es : List Nat) (bs : List (Byte × Bool)) : List PairP :=
  let o := s.collOp r d.srcOp
  if d.pairIn then (unpackCodes 64 es.length bs).map fun c => ((BitVec.ofNat 32 c.1, BitVec.ofNat 32 (c.1 / 2 ^ 32)), c.2)
  else
    match o.fmt with
    | none => es.map fun _ => (pair0, false)
    | some f =>
      let nb := cdiv (f.elem.bits * es.length) 8
      let codes := unpackCodes f.elem.bits es.length bs
      let blocks := scaleBlocks o f es
      let sc := bs.drop nb
      let ts := (sc.drop blocks.length).take 4
      let tv : Ext × Bool := if f.kind == .e4m3t then (tscaleValue (BitVec.ofNat 32 (leNat (ts.map (·.1)))), ts.any (·.2)) else (.one, false)
      (List.zip es codes).map fun x =>
        let v := f.elem.decode x.2.1
        let b := sc.getD (blocks.findIdx (· == (x.1 / o.inner, x.1 % o.inner / f.block))) (0#8, false)
        let sv : Ext × Bool := if f.kind == .none then (.one, false) else ((f.kind.value b.1.toNat).mul tv.1, b.2 || tv.2)
        ((rne32 (if sv.1.isNan then .nan else v.mul sv.1), 0#32), x.2.2 || sv.2)

/-- The result codes of an owner's chain (R301). -/
def resultCodes (s : State) (r : CollRun) (d : CollDesc) (es : List Nat) (ps : List PairP) : List (Nat × Bool × Bool) × List Nat :=
  let el := (s.collDst r d.dstOp).elem
  let rows := (List.zip es ps).map fun x =>
    if el == .fp32 then ({ cells := [{ code := (resolve x.2.1).toNat, poison := x.2.2 }], scales := [], side := [], counts := [] } : RowOut)
    else s.linkNarrow d el 3 r.step x.1 (resolve x.2.1, x.2.2)
  (rows.map fun x => let c := x.cells.getD 0 { code := 0 }; (c.code, c.poison || c.own, c.own), rows.flatMap (·.counts))

/-- Result codes written at the destination: element e of the sum, or of the leaf's own part (R303). -/
def writeResult (s : State) (r : CollRun) (d : CollDesc) (strand : Nat) (es : List Nat) (cs : List (Nat × Bool × Bool)) : State :=
  let o := s.collDst r d.dstOp
  let g := s.collGeo d
  let total := s.collN r d
  let base := if d.kind == CK_REDUCE_SCATTER then g.me * (total / g.n) else 0
  if r.bad || o.inner == 0 then s
  else
    let w := (List.zip es cs).foldl (fun (t : State × Nat) x =>
      let e := x.1 - base
      let y := t.1.writeElems .move o.elem (o.base + e / o.inner * o.stride) (e % o.inner) o.inner [{ code := x.2.1, poison := x.2.2.1, own := x.2.2.2 }]
      (y.1, t.2 + y.2)) (s, 0)
    (w.1.bump (linkBank strand) POISONED w.2).faultIf (cs.any (·.2.1)) r.step FB_POISON

/-! ### Reductions (R300 to R303) -/

/-- Result codes passed round the rings of the phases below `f`, highest first (R303). -/
def spread (s : State) (r : CollRun) (d : CollDesc) (g : CollGeo) (strand owner : Nat) (data : List (Byte × Bool)) : Nat → State
  | 0 => s
  | f + 1 =>
    let s1 := if (g.ring f g.me).length > 1 then s.collSendLeaf r d (g.leafAfter f g.me strand 1) strand true (.gather f strand owner) data else s
    spread s1 r d g strand owner data f

/-- The sum of a chain at its owner: the result written, and sent on where every leaf gets it (R301, R303). -/
def finishChain (s : State) (coll step strand owner : Nat) (es : List Nat) (ps : List PairP) : State :=
  match s.findRun coll step with
  | none => s
  | some r =>
    let d := CollDesc.ofNat r.desc
    let g := s.collGeo d
    let c := s.resultCodes r d es ps
    let s1 := (s.bumps (linkBank strand) c.2).writeResult r d strand es c.1
    let data := packCodes (s.collDst r d.dstOp).elem.bits (c.1.map fun x => (x.1, x.2.1))
    match d.kind with
    | 1 => s1.spread r d g strand owner data g.phases.length
    | 2 =>
      let grp := if d.span.level == 4 then fld (s.nat (SPAN_TABLE + 64 * d.span.index) 64) 367 356 else 0
      if grp ≥ 0x800 then s1.collSend r d grp strand false (.gather 0 strand owner) data
      else (List.range g.n).foldl (fun t l => if l == g.me then t else t.collSendLeaf r d l strand false (.gather 0 strand owner) data) s1
    | _ => s1

/-- One pier's part of a chain: its term added to what came, and the pair sent on or kept (R301). `f` counts the
phases left, `got` is what came. -/
def advance : Nat → State → Nat → Nat → Nat → Nat → Nat → Option (List PairP) → State
  | 0, s, _, _, _, _, _, _ => s
  | fuel + 1, s, coll, step, f, strand, owner, got =>
    match s.findRun coll step with
    | none => s
    | some r =>
      let d := CollDesc.ofNat r.desc
      let g := s.collGeo d
      let es := chainElems d g.n (s.collN r d) strand owner
      let mine : List PairP := es.map fun e => if f == 0 then s.contribution r d e else s.scratchPair r d e
      let inc := got.getD (es.map fun _ => (pair0, false))
      let sum : List PairP := List.zipWith (fun (a b : PairP) => (addPair a.1 b.1.1 b.1.2, a.2 || b.2)) inc mine
      let nd := (g.ring f g.me).length
      let q := if g.phases.isEmpty then nd else g.chainPos f g.me strand owner
      if q < nd then
        let x := if q == 1 && f == 0 then (s.firstHop r d es, []) else s.hopEncode r d g f es sum
        (s.bumps (linkBank strand) x.2).collSendLeaf r d (g.leafAfter f g.me strand 1) strand true (.reduce f strand owner) x.1
      else
        let s1 := if d.kind == CK_ORDERED || r.bad || g.phases.isEmpty then s else (List.zip es sum).foldl (fun (t : State) x =>
          let a := t.scratchAddr r d x.1
          (t.writeF32 a (x.2.1.1, x.2.2)).writeF32 (a + 4) (x.2.1.2, x.2.2)) s
        let s2 := s1.onRun coll step fun r => { r with closed := r.closed ++ [(f, strand, owner)] }
        if f + 1 ≥ g.phases.length then s2.finishChain coll step strand owner es sum
        else if g.chainPos (f + 1) g.me strand owner == 1 then advance fuel s2 coll step (f + 1) strand owner none
        else
          match r.stash.find? fun x => x.1.part == .reduce (f + 1) strand owner with
          | none => s2
          | some m =>
            let s3 := s2.onRun coll step fun r => { r with stash := r.stash.filter (· != m) }
            advance fuel s3 coll step (f + 1) strand owner (some (hopDecode d es.length m.2))

/-- A hop of a chain arrives. It waits where this pier's own term of the phase is not ready yet. -/
def reduceHop (s : State) (r : CollRun) (h : CollHead) (f strand owner : Nat) (data : List (Byte × Bool)) : State :=
  let d := CollDesc.ofNat r.desc
  let g := s.collGeo d
  if f > 0 && !r.closed.contains (f - 1, strand, owner) then s.setRun { r with stash := r.stash ++ [(h, data)] }
  else
    let es := chainElems d g.n (s.collN r d) strand owner
    let first := f == 0 && g.chainPos f g.me strand owner == 2
    advance 4 s r.coll r.step f strand owner (some (if first then s.firstDecode r d es data else hopDecode d es.length data))

/-- Result codes arrive: written, passed on round the ring, and on into the lower phases (R303). -/
def gatherHop (s : State) (r : CollRun) (f strand owner : Nat) (data : List (Byte × Bool)) : State :=
  let d := CollDesc.ofNat r.desc
  let g := s.collGeo d
  let es := chainElems d g.n (s.collN r d) strand owner
  let el := (s.collDst r d.dstOp).elem
  let cs := (unpackCodes el.bits es.length data).map fun c => (c.1, c.2, false)
  let s1 := s.writeResult r d strand es cs
  if d.kind == CK_ORDERED then s1
  else
    let body := data.take (cdiv (el.bits * es.length) 8)
    let q := g.chainPos f g.me strand owner
    let s2 := if q + 1 < (g.ring f g.me).length then s1.collSendLeaf r d (g.leafAfter f g.me strand 1) strand true (.gather f strand owner) body else s1
    s2.spread r d g strand owner body f

/-- What this pier is to receive in a reduction. -/
def reduceWaits (s : State) (r : CollRun) (d : CollDesc) (g : CollGeo) : List (Nat × CollPart) :=
  (chains d g.n (s.collN r d)).flatMap fun c =>
    ((List.range g.phases.length).filterMap fun f =>
      if g.onChain f g.me c.2 && g.chainPos f g.me c.1 c.2 != 1 then
        some ((g.leafAfter f g.me c.1 ((g.ring f g.me).length - 1)), CollPart.reduce f c.1 c.2)
      else none) ++
    (match d.kind with
     | 1 => match (List.range g.phases.length).find? fun f => !g.samePlace f g.me c.2 with
       | some f => [(g.leafAfter f g.me c.1 ((g.ring f g.me).length - 1), CollPart.gather f c.1 c.2)]
       | none => []
     | 2 => if g.me + 1 == g.n then [] else [(g.n - 1, CollPart.gather 0 c.1 c.2)]
     | _ => [])

/-! ### Copies (R298, R303) -/

/-- The parts of an operand that travel: codes, block scales, tensor scale, mask tiles, zero bitmap, as address ranges. -/
def opParts (o : OpDesc) : List (List (Nat × Nat)) :=
  match o.fmt with
  | none => []
  | some f =>
    [(List.range o.rows).map fun i => (o.base + i * o.stride, packedRow o.fmt o.maskEn o.inner),
     if f.kind == .none then [] else [(o.bscale, o.rows * o.blocks)],
     if f.kind == .e4m3t then [(o.tscale, 4)] else [],
     if o.maskEn then [(o.maskAddr, 8 * cdiv o.rows 8 * cdiv o.inner 8)] else [],
     if o.zmapEn then [(o.zmapAddr, cdiv (cdiv o.rows 16 * cdiv o.inner 64) 8)] else []]

def readRanges (s : State) (rs : List (Nat × Nat)) : List (Byte × Bool) := rs.flatMap fun x => s.readBy .move x.1 x.2

def writeRanges (s : State) : List (Nat × Nat) → List (Byte × Bool) → State
  | [], _ => s
  | x :: xs, bs => writeRanges (s.writeBy .move x.1 (bs.take x.2)) xs (bs.drop x.2)

/-- Parts of an operand that hold bytes, by number. -/
def partNumbers (o : OpDesc) : List Nat := ((opParts o).zipIdx.filter fun p => !p.1.isEmpty).map (·.2)

/-- Operand index at which a leaf's copy lands. -/
def copyDst (d : CollDesc) (leaf : Nat) : Nat := if d.kind == CK_BROADCAST then d.dstOp else d.dstOp + leaf

/-- This pier's sends and own copy of a copying collective (R298). -/
def copyStart (s : State) (r : CollRun) (d : CollDesc) (g : CollGeo) : State :=
  let grp := if d.span.level == 4 then fld (s.nat (SPAN_TABLE + 64 * d.span.index) 64) 367 356 else 0
  let own (s : State) (src : Nat) : State :=
    let o := s.collOp r src
    let t := s.collOp r (copyDst d g.me)
    (partNumbers o).foldl (fun (u : State) p => u.writeRanges ((opParts t).getD p []) (s.readRanges ((opParts o).getD p []))) (s.noteReads (opParts o).flatten)
  let send (s : State) (src leaf : Nat) : State :=
    let o := s.collOp r src
    (partNumbers o).foldl (fun (u : State) p => u.collSendLeaf r d leaf 0 false (.copy g.me p) (u.readRanges ((opParts o).getD p []))) s
  let sendAll (s : State) : State :=
    let o := s.collOp r d.srcOp
    if grp ≥ 0x800 then (partNumbers o).foldl (fun (u : State) p => u.collSend r d grp 0 false (.copy g.me p) (u.readRanges ((opParts o).getD p []))) s
    else (List.range g.n).foldl (fun u l => if l == g.me then u else send u d.srcOp l) s
  match d.kind with
  | 4 => sendAll (own s d.srcOp)
  | 5 => if g.me == d.root then sendAll (own s d.srcOp) else s
  | _ => (List.range g.n).foldl (fun u l => if l == g.me then own u (d.srcOp + l) else send u (d.srcOp + l) l) s

def copyWaits (s : State) (r : CollRun) (d : CollDesc) (g : CollGeo) : List (Nat × CollPart) :=
  let from' (l : Nat) : List (Nat × CollPart) := (partNumbers (s.collOp r (copyDst d l))).map fun p => (l, CollPart.copy l p)
  match d.kind with
  | 5 => if g.me == d.root then [] else from' d.root
  | _ => ((List.range g.n).filter (· != g.me)).flatMap from'

/-! ### Routed collectives (R205 to R208, R308) -/

/-- Expert placement entry (R205). -/
def expertPlace (s : State) (d : CollDesc) (e : Nat) : Nat × Nat := let v := s.nat (d.place + 8 * e) 8; (fld v 63 52, fld v 51 42)

/-- Expert home entry (R205): input descriptor, count block, gradient region. -/
def expertHome (s : State) (d : CollDesc) (l : Nat) : Nat := s.nat (d.home + 32 * l) 32
def homeIn (s : State) (h : Nat) : OpDesc := OpDesc.ofNat (s.nat (fld h 255 208) 64)

/-- This pier's route descriptors of a routed collective (R308). -/
def routeDescs (s : State) (r : CollRun) (d : CollDesc) : List RouteDesc :=
  (List.range (min d.auxCount 64)).map fun i => RouteDesc.ofNat (s.nat (r.dbase + 64 * s.nat (d.aux + 2 * i) 2) 64)

def expertCount (ds : List RouteDesc) : Nat := match ds with | x :: _ => x.experts | [] => 0

/-- Key of the accepted counts: the first dispatch list. -/
def acceptKey (ds : List RouteDesc) : Nat := match ds with | x :: _ => x.disp | [] => 0

/-- Experts placed on a leaf. -/
def expertsOn (s : State) (d : CollDesc) (experts leaf : Nat) : List Nat := (List.range experts).filter fun e => (s.expertPlace d e).1 == leaf

def dispAssigned (s : State) (disp e : Nat) : Nat := fld (s.nat (dispRecord disp e) 8) 63 47
def dispAccepted (s : State) (disp e : Nat) : Nat := fld (s.nat (dispRecord disp e) 8) 46 30
def dispListOff (s : State) (disp e : Nat) : Nat := fld (s.nat (dispRecord disp e) 8) 29 10

/-- Choice index k × t + r of slot j of an expert, from its row list. -/
def slotChoice (s : State) (x : RouteDesc) (e j : Nat) : Nat :=
  let v := s.nat (dispRow x.disp x.experts (x.ntok * x.k) (s.dispListOff x.disp e + j)) 4
  x.k * fld v 31 16 + fld v 15 13

/-- A row as it travels: elements, then its block scales (R207). -/
def rowBytes (s : State) (o : OpDesc) (row : Nat) : List (Byte × Bool) :=
  s.readBy .move (o.base + row * o.stride) (packedRow o.fmt o.maskEn o.inner) ++
  (match o.fmt with | some f => if f.kind == .none then [] else s.readBy .move (o.bscale + row * o.blocks) o.blocks | none => [])

def putRowBytes (s : State) (o : OpDesc) (row : Nat) (bs : List (Byte × Bool)) : State :=
  let n := packedRow o.fmt o.maskEn o.inner
  let s1 := s.writeBy .move (o.base + row * o.stride) (bs.take n)
  match o.fmt with
  | some f => if f.kind == .none then s1 else s1.writeBy .move (o.bscale + row * o.blocks) ((bs.drop n).take o.blocks)
  | none => s1

/-- The strand of the first element of a row. -/
def rowStrand (o : OpDesc) (row : Nat) : Nat := row * o.inner / 128 % 4

/-- Rows of one source and expert sent to the expert's pier (R207, R208). -/
def sendRows (s : State) (r : CollRun) (d : CollDesc) (x : RouteDesc) (e n : Nat) : State :=
  let o := if d.kind == CK_ROUTED_BWD then s.collOp r x.deOp else s.collOp r d.srcOp
  let leaf := (s.expertPlace d e).1
  (List.range n).foldl (fun (t : State) j =>
    let c := s.slotChoice x e j
    let row := if d.kind == CK_ROUTED_BWD then c else x.tokOff + c / max x.k 1
    (t.noteReads [(o.base + row * o.stride, packedRow o.fmt o.maskEn o.inner)]).collSendLeaf r d leaf (rowStrand o row) false
      (.row x.src e j) (s.rowBytes o row)) s

/-- Accepted counts of an expert on this pier, by source. -/
def acceptsOf (s : State) (key e : Nat) : List (Nat × Nat × Nat) := aget s.coll.accepts (key, e) []

/-- A_p: rows accepted from the sources below one (R207). -/
def rowsBelow (as : List (Nat × Nat × Nat)) (src : Nat) : Nat := ((as.filter fun a => a.1 < src).map fun a => a.2.2).sum
def rowsAll (as : List (Nat × Nat × Nat)) : Nat := (as.map fun a => a.2.2).sum

/-- Rows to come for an expert once its counts stand. -/
def rowWaits (as : List (Nat × Nat × Nat)) (e : Nat) : List (Nat × CollPart) :=
  as.flatMap fun a => (List.range a.2.2).map fun j => (a.2.1, CollPart.row a.1 e j)

/-- The start of a routed collective on this pier: counts or rows sent, and what is to come. -/
def routedStart (s : State) (r : CollRun) (d : CollDesc) (g : CollGeo) : State :=
  let ds := s.routeDescs r d
  let ex := expertCount ds
  let key := acceptKey ds
  match d.kind with
  | 7 =>
    let counts := (s.expertsOn d ex g.me).flatMap fun e => (List.range (g.n * ds.length)).map fun i => (i / max ds.length 1, CollPart.count (i % max ds.length 1) e)
    let accs := ds.flatMap fun x => (List.range ex).map fun e => ((s.expertPlace d e).1, CollPart.accept x.src e)
    let s1 := s.setRun { r with waiting := counts ++ accs }
    ds.zipIdx.foldl (fun (t : State) x => (List.range ex).foldl (fun (t : State) e =>
      t.collSendLeaf r d (t.expertPlace d e).1 0 false (.count x.2 e) ((natLE 4 x.1.src ++ natLE 4 (s.dispAssigned x.1.disp e)).map fun b => (b, false))) t) s1
  | 8 =>
    let mine := ds.flatMap fun x => (List.range ex).flatMap fun e => (List.range (s.dispAccepted x.disp e)).map fun j => ((s.expertPlace d e).1, CollPart.row x.src e j)
    let s1 := s.setRun { r with waiting := mine }
    (s.expertsOn d ex g.me).foldl (fun (t : State) e =>
      let o := s.collOp r (d.srcOp + (s.expertPlace d e).2)
      let as := s.acceptsOf key e
      as.foldl (fun (t : State) a => (List.range a.2.2).foldl (fun (t : State) j =>
        let row := rowsBelow as a.1 + j
        (t.noteReads [(o.base + row * o.stride, packedRow o.fmt o.maskEn o.inner)]).collSendLeaf r d a.2.1 (rowStrand o row) false
          (.row a.1 e j) (s.rowBytes o row)) t) t) s1
  | _ =>
    let s1 := s.setRun { r with waiting := (s.expertsOn d ex g.me).flatMap fun e => rowWaits (s.acceptsOf key e) e }
    ds.foldl (fun (t : State) x => (List.range ex).foldl (fun (t : State) e => t.sendRows r d x e (s.dispAccepted x.disp e)) t) s1

/-- Counts of one expert accepted by ascending source, rows over capacity cut, and the accepted counts returned
(R206). -/
def acceptCounts (s : State) (r : CollRun) (d : CollDesc) (e : Nat) : State :=
  let ds := s.routeDescs r d
  let o := s.homeIn (s.expertHome d (s.expertPlace d e).2)
  let cs := ((r.counts.filter fun c => c.1 == e).map (·.2)).mergeSort fun a b => a.1 ≤ b.1
  let res := cs.foldl (fun (acc : List (Nat × Nat × Nat) × Nat × Nat) c =>
    let k := min c.2.2 (o.rows - acc.2.1)
    (acc.1 ++ [(c.1, c.2.1, k)], acc.2.1 + k, acc.2.2 + (c.2.2 - k))) ([], 0, 0)
  let s1 := { s with coll := { s.coll with accepts := aset s.coll.accepts (acceptKey ds, e) res.1 } }.bump .recv 0 res.2.2
  let s2 := s1.onRun r.coll r.step fun x => { x with waiting := x.waiting ++ rowWaits res.1 e }
  res.1.foldl (fun (t : State) a => t.collSendLeaf r d a.2.1 0 false (.accept a.1 e) ((natLE 4 a.2.2).map fun b => (b, false))) s2

/-- A source takes an accepted count: its record, choices past it DROPPED, and the header (R206). -/
def takeAccepted (s : State) (x : RouteDesc) (e n : Nat) : State :=
  let a := dispRecord x.disp e
  let s1 := s.writeNat a 8 (setFld (s.nat a 8) 46 30 n)
  let s2 := (List.range (x.ntok * x.k)).foldl (fun (t : State) i =>
    let c := t.readChoice x.disp x.experts i
    if c.status.sent && c.expert == e && c.slot ≥ n then
      t.writeNat (dispChoice x.disp x.experts i + 4) 4 ((choiceEntry { c with status := .dropped }) / 2 ^ 32)
    else t) s1
  let cs := s2.readChoices x
  let cnt (p : ChoiceStatus → Bool) : Nat := (cs.filter fun c => p c.status).length
  let h := s2.nat x.disp 64
  s2.writeNat x.disp 64 (setFld (setFld (setFld h 450 431 (cnt (·.sent))) 430 411 (cnt (· == .dropped))) 373 357 (unservedOf x.k x.ntok cs))

/-- Every row of an expert has landed: the count block, the padding rows, the zero bitmap, and an idle expert's gradient
(R207, R212). -/
def closeExpert (s : State) (r : CollRun) (d : CollDesc) (e : Nat) : State :=
  let ds := s.routeDescs r d
  let h := s.expertHome d (s.expertPlace d e).2
  let o := s.homeIn h
  let n := rowsAll (s.acceptsOf (acceptKey ds) e)
  let bands := cdiv n 48
  let s0 := if d.kind == CK_ROUTED_BWD && n == 0 then s.writeBy .move (fld h 159 112) (List.replicate (fld h 111 80 / 4 * 4) (0#8, false)) else s
  let s1 := s0.writeBy .move (fld h 207 160) ((natLE 4 n ++ natLE 4 bands).map fun b => (b, false))
  let last := min (48 * bands) o.rows
  let s2 := (List.range (last - n)).foldl (fun (t : State) i =>
    t.writeBy .move (o.base + (n + i) * o.stride) (List.replicate (packedRow o.fmt o.maskEn o.inner) (0#8, false))) s1
  if !o.zmapEn then s2
  else
    (List.range (cdiv last 16)).foldl (fun (t : State) gr => (List.range (cdiv o.inner 64)).foldl (fun (t : State) gc =>
      let rs := (List.range (min 16 (o.rows - 16 * gr))).map (16 * gr + ·)
      let cs := (List.range (min 64 (o.inner - 64 * gc))).map (64 * gc + ·)
      let zero := rs.all fun i => i < last && cs.all fun c => let x := s2.elemAt o false (i : Int) (c : Int); x.absent && !x.poison
      let idx := gr * cdiv o.inner 64 + gc
      let b := t.byte (o.zmapAddr + idx / 8)
      t.writeBy .move (o.zmapAddr + idx / 8) [(BitVec.ofNat 8 (setFld b.1.toNat (idx % 8) (idx % 8) (b2n zero)), b.2)]) t) s2

/-! ### Arrival of messages -/

/-- The data of a message of a routed collective or of a copy taken in. -/
def takePart (s : State) (r : CollRun) (h : CollHead) (data : List (Byte × Bool)) : State :=
  let d := CollDesc.ofNat r.desc
  let psn (t : State) : State := t.faultIf (data.any (·.2)) r.step FB_POISON
  match h.part with
  | .reduce f st o => s.reduceHop r h f st o data
  | .gather f st o => s.gatherHop r f st o data
  | .copy l p =>
    let o := s.collOp r (copyDst d l)
    if r.bad then s else psn (s.writeRanges ((opParts o).getD p []) data)
  | .count _ e =>
    let v := leNat (data.map (·.1))
    let r1 := { r with counts := r.counts ++ [(e, (v % 2 ^ 32, h.src, v / 2 ^ 32 % 2 ^ 32))] }
    let s1 := s.setRun r1
    if r1.waiting.any fun w => match w.2 with | .count _ x => x == e | _ => false then s1 else s1.acceptCounts r1 d e
  | .accept src e =>
    let ds := s.routeDescs r d
    match ds.find? fun x => x.src == src with
    | none => s
    | some x =>
      let n := leNat (data.map (·.1)) % 2 ^ 32
      let s1 := s.takeAccepted x e n
      let more := r.waiting.any fun w => match w.2 with | .accept y _ => y == src | _ => false
      let s2 := if more then s1 else s1.writeNat x.disp 64 (setFld (s1.nat x.disp 64) 356 356 1)
      s2.sendRows r d x e n
  | .row src e j =>
    if r.bad then s
    else if d.kind == CK_ROUTED_RET then
      match (s.routeDescs r d).find? fun x => x.src == src with
      | some x => psn (s.putRowBytes (s.collOp r x.retOp) (s.slotChoice x e j) data)
      | none => s
    else
      let as := s.acceptsOf (acceptKey (s.routeDescs r d)) e
      psn (s.putRowBytes (s.homeIn (s.expertHome d (s.expertPlace d e).2)) (rowsBelow as src + j) data)
  | .ret .. | .chunk _ => s

/-- A whole message for a collective of this pier: its trailer checked, its data taken (R307). -/
def collMessage (s : State) (h : CollHead) (pier : Nat) (bs : List (Byte × Bool)) : State :=
  match s.findRun h.coll h.step with
  | none => { s with coll := { s.coll with early := s.coll.early ++ [(h, pier, bs)] } }
  | some r =>
    let d := CollDesc.ofNat r.desc
    let n := bs.length - 8
    let data := bs.take n
    let tr := leNat ((bs.drop n).map (·.1))
    let sigBad := tr / 2 ^ 32 != s.signature r d
    let crcBad := tr % 2 ^ 32 != crc32c (data.map (·.1))
    let strand := match h.part with | .reduce _ k _ | .gather _ k _ => k | _ => 0
    let own := r.op.isNone
    let s0 := if sigBad || crcBad then (let t := s.bump .coll OC_CHECKSUM; if own then t.fault r.step FB_CHECKSUM else t) else s
    let s1 := if !own then s0 else
      { s0 with gate := { s0.gate with sigFail := s0.gate.sigFail || sigBad, badEngine := if crcBad then some (strand / 2) else s0.gate.badEngine } }
    let r1 := { r with waiting := r.waiting.erase (h.src, h.part), bad := r.bad || sigBad || (crcBad && !own) }
    (s1.setRun r1).takePart r1 h data

/-- Messages that came before their collective started here, or from this pier to itself, taken in, round by round. -/
def collDrain : Nat → State → State
  | 0, s => s
  | n + 1, s =>
    let mine := s.coll.early.filter fun x => (s.findRun x.1.coll x.1.step).isSome
    let rest := s.coll.early.filter fun x => (s.findRun x.1.coll x.1.step).isNone
    if mine.isEmpty then s
    else collDrain n (mine.foldl (fun t x => t.collMessage x.1 x.2.1 x.2.2) { s with coll := { s.coll with early := rest } })

/-- A message of another pier taken in, and what it lets go on. -/
def collArrive (s : State) (h : CollHead) (pier : Nat) (bs : List (Byte × Bool)) : State := collDrain 4 (s.collMessage h pier bs)

/-! ### Starting and completing (R296) -/

/-- A collective started on this pier, and the messages that came before it taken in. -/
def collBegin (s : State) (r : CollRun) : State :=
  let d := CollDesc.ofNat r.desc
  let s0 := { s with coll := { s.coll with runs := s.coll.runs ++ [r] } }
  let g := s0.collGeo d
  let s1 : State :=
    if d.kind ≤ 3 then
      let cs := chains d g.n (s0.collN r d)
      let t := s0.setRun { r with waiting := s0.reduceWaits r d g }
      cs.foldl (fun t c => if g.phases.isEmpty || (g.onChain 0 g.me c.2 && g.chainPos 0 g.me c.1 c.2 == 1) then advance 4 t r.coll r.step 0 c.1 c.2 none else t) t
    else if d.kind ≤ 6 then (s0.setRun { r with waiting := s0.copyWaits r d g }).copyStart r d g
    else if d.kind ≤ 9 then s0.routedStart r d g
    else s0
  collDrain 4 s1

def collCtx (s : State) : CollCtx := CollCtx.ofNat (s.nat s.plan.collCtx 32)

/-- Whether the first F- or B-stream has passed GATE of a step (R296). -/
def gatePassed (s : State) (step : Nat) : Bool :=
  s.streams.any fun x => !isU x.1 && (x.2.step > step || (x.2.step == step && x.2.gated))

/-- The list as it stands for the next entry: the list of the next step begins once its predecessor has wholly started
and a stream has passed the step's GATE. -/
def collList (s : State) (c : CollCtx) : CollSt :=
  let k := s.coll
  let next := if k.started then k.step + 1 else s.job.startStep
  if (!k.started || k.pos ≥ c.count) && s.gatePassed next then { k with step := next, started := true, pos := 0 } else k

/-- The next entry of the collective list starts where its wait is satisfied and fewer than 8 are in flight (R296). -/
def entryStart (s : State) : State :=
  let c := s.collCtx
  if !c.active || !s.job.running then s
  else
    let k := s.collList c
    let s0 := { s with coll := k }
    if !k.started || k.pos ≥ c.count then s0
    else
      let word := s.nat (c.list + 16 * k.pos) 16
      let e := ListEntry.ofNat word
      if !s.entryReady e k.step || k.runs.length ≥ 8 then s0
      else
        let s1 := { s0 with coll := { k with pos := k.pos + 1 } }
        let da := c.dbase + 64 * e.desc
        let dv := s.nat da 64
        let d := CollDesc.ofNat dv
        if d.kind == 0 || d.kind > 9 then
          s1.report { kind := 1, clamp := CL_NULL, widthM1 := 3, bitOff := 508, index := da / 64, supplied := d.kind }
        else s1.collBegin { coll := e.collId, desc := dv, dbase := c.dbase, step := k.step, entry := word }

/-- Whether everything a collective receives has been written here. -/
def collReceived (s : State) (r : CollRun) : Bool :=
  let d := CollDesc.ofNat r.desc
  let need := if d.kind == CK_ROUTED_FWD || d.kind == CK_ROUTED_BWD then s.expertsOn d (expertCount (s.routeDescs r d)) (s.collGeo d).me else []
  r.waiting.isEmpty && r.stash.isEmpty && need.all r.landed.contains

/-- Whether a flit of a collective still waits to leave this pier. -/
def collHeld (s : State) (r : CollRun) : Bool :=
  s.net.held.any fun h => h.src.isNone && match h.flit.body with | .coll x => x.coll == r.coll && x.step == r.step | _ => false

/-- The rows of an expert have landed (R207). -/
def rowsLanded (s : State) (coll e : Nat) : State :=
  match s.coll.runs.find? fun r => r.coll == coll with
  | none => s
  | some r =>
    let d := CollDesc.ofNat r.desc
    let waits := r.waiting.any fun w => match w.2 with | .row _ x _ | .count _ x => x == e | _ => false
    if (d.kind != CK_ROUTED_FWD && d.kind != CK_ROUTED_BWD) || waits || r.landed.contains e || (s.expertPlace d e).1 != (s.collGeo d).me then s
    else (if r.bad then s else s.closeExpert r d e).onRun r.coll r.step fun x => { x with landed := x.landed ++ [e] }

/-- A collective completes on this pier, and its signal goes (R296). -/
def collFinish (s : State) (coll : Nat) : State :=
  match s.coll.runs.find? fun r => r.coll == coll with
  | none => s
  | some r =>
    if !s.collReceived r || s.collHeld r then s
    else
      let s1 := { s with coll := { s.coll with runs := s.coll.runs.filter fun x => !(x.coll == r.coll && x.step == r.step) } }.bump .coll OC_DONE
      if r.op.isSome then { s1 with coll := { s1.coll with opDone := s1.coll.opDone ++ [(coll, r.bad)] } } else s1.entrySignal (ListEntry.ofNat r.entry) r.step

/-- Whether every collective of a step has completed on this pier (R297). -/
def collsDone (s : State) (step : Nat) : Bool :=
  let c := s.collCtx
  let k := s.coll
  !c.active || c.count == 0 || (k.started && k.step > step) || (k.started && k.step == step && k.pos ≥ c.count && k.runs.all fun r => r.step != step)

/-- Collectives of discarded steps stop: nothing further is written, and their lists start again (R148, R297). -/
def collDiscard (s : State) (step : Nat) : State :=
  let k := s.coll
  { s with
    coll := { k with
      runs := k.runs.filter fun r => r.step < step || r.op.isSome
      parts := k.parts.filter fun p => p.1.2.step < step
      early := k.early.filter fun m => m.1.step < step
      step := if k.step ≥ step then step - 1 else k.step
      started := k.started && !(k.step ≥ step && step ≤ s.job.startStep)
      pos := if k.step ≥ step then 4096 else k.pos }
    net := { s.net with held := s.net.held.filter fun h => match h.flit.body with | .coll x => x.step < step | _ => true } }

end State

end Sys2Proof.Machine
end

