-- ==== Sys2Proof/Machine/Camber.lean ====
section
/-! DEFINITION. The camber unit: its tables (R217 to R227), pass 1 (R229), pass 2 (R237 to R239), copy refresh (R240),
matrix mode (R242 to R244) and telemetry (R245). -/

namespace Sys2Proof.Machine

/-- A layer descriptor (R226). -/
structure LayerDesc where
  stateBase : Nat
  rows : Nat
  cols : Nat
  gradOp : Nat
  fwdOp : Nat
  bwdOp : Nat
  group : Nat
  kexp : Int
  fwdEn : Bool
  bwdEn : Bool
  normEn : Bool
  precond : Nat
  telSlot : Nat
deriving DecidableEq, Repr

def LayerDesc.ofNat (v : Nat) : LayerDesc :=
  { stateBase := fld v 511 464, rows := fld v 463 440 + 1, cols := fld v 439 416 + 1, gradOp := fld v 415 400,
    fwdOp := fld v 399 384, bwdOp := fld v 383 368, group := fld v 367 356, kexp := sext 6 (fld v 355 350)
    fwdEn := bitOf v 349, bwdEn := bitOf v 348, normEn := bitOf v 347, precond := fld v 346 299, telSlot := fld v 298 286 }

/-- Plane size in bytes (R217). -/
def LayerDesc.pb (l : LayerDesc) : Nat := 64 * cdiv (2 * (l.rows * l.cols)) 64
def LayerDesc.tail (l : LayerDesc) : Nat := l.stateBase + 4 * l.pb

/-- Update rules (R221). -/
inductive Rule where
  | adaptive | momentum | matrix
deriving DecidableEq, Repr

/-- A coefficient entry with its fields clamped (R221). -/
structure Coeff where
  a1 : F32
  b1 : F32
  a2 : F32
  b2 : F32
  eps : F32
  lambda : F32
  ctlWord : Nat
  curve : Nat
  rule : Rule
  bc1 : Bool
  bc2 : Bool
  active : Bool
  left : Bool
  right : Bool
  interval : Nat
  damp : F32
  pe : Nat
deriving DecidableEq, Repr

/-- 2^e as FP32. -/
def pow2 (e : Int) : F32 := rne32 (.dyadic false 1 e)

/-- A decay field: values at or above 1 become 1 − 2^−24, negative values and NaN +0 (R221). -/
def decay (w : F32) : F32 :=
  if isNan32 w || (w.toNat ≥ 2 ^ 31) then 0#32 else if w.toNat ≥ 0x3F800000 then 0x3F7FFFFF#32 else w

def posFinite (w : F32) : Bool := w.toNat < 0x7F800000 && w.toNat != 0
def nonnegFinite (w : F32) : Bool := w.toNat < 0x7F800000 || w == 0x80000000#32

def Coeff.ofNat (v : Nat) : Coeff :=
  let w (hi lo : Nat) : F32 := BitVec.ofNat 32 (fld v hi lo)
  let a1 := decay (w 511 480)
  let a2 := decay (w 447 416)
  let sd := if fld v 274 273 == 0 then 3 else fld v 274 273
  { a1 := a1, b1 := if finite32 (w 479 448) then w 479 448 else fsub fOne a1
    a2 := a2, b2 := if finite32 (w 415 384) then w 415 384 else fsub fOne a2
    eps := if posFinite (w 383 352) then w 383 352 else pow2 (-27)
    lambda := if nonnegFinite (w 351 320) then w 351 320 else 0#32
    ctlWord := fld v 319 288, curve := fld v 287 280
    rule := match fld v 279 278 with | 1 => .momentum | 2 => .matrix | _ => .adaptive
    bc1 := bitOf v 277, bc2 := bitOf v 276, active := bitOf v 275
    left := sd % 2 == 1, right := sd ≥ 2, interval := max (fld v 272 257) 1
    damp := if posFinite (w 256 225) then w 256 225 else pow2 (-20), pe := fld v 224 220 }

/-! ### Schedule (R223) -/

structure Breakpoint where
  tstep : Nat
  eta : F32
  seg : Nat
  zero : Bool
deriving DecidableEq, Repr

def Breakpoint.ofNat (v : Nat) : Breakpoint :=
  let e := BitVec.ofNat 32 (fld v 79 48)
  { tstep := fld v 127 80, eta := if nonnegFinite e then e else 0#32, seg := fld v 47 46, zero := v == 0 }

/-- The valid run of a curve (R223). -/
def validRun : Option Nat → List Breakpoint → List Breakpoint
  | _, [] => []
  | prev, b :: bs =>
    match prev with
    | some p => if b.zero || b.tstep ≤ p then [] else if b.seg == 3 then [b] else b :: validRun (some b.tstep) bs
    | none => if b.seg == 3 then [b] else b :: validRun (some b.tstep) bs

/-- Whether a tstep that does not rise cut the run off (reported at plan load). -/
def runCut : Option Nat → List Breakpoint → Bool
  | _, [] => false
  | prev, b :: bs =>
    match prev with
    | some p => if b.zero then false else if b.tstep ≤ p then true else if b.seg == 3 then false else runCut (some b.tstep) bs
    | none => if b.seg == 3 then false else runCut (some b.tstep) bs

/-- e1 + (e0 − e1) × (1 + c) / 2 for an exact c. -/
def cosineMix (e0 e1 c : Ext) : Ext := e1.add (((e0.sub e1).mul (Ext.one.add c)).mul (.fin false 1 2))

/-- The value of a COSINE segment at f = n/d, one rounding. -/
def cosineEta (e0 e1 : Ext) (n d : Nat) : F32 :=
  if n == 0 then rne32 e0
  else if 3 * n == d then rne32 (cosineMix e0 e1 (.fin false 1 2))
  else if 2 * n == d then rne32 (cosineMix e0 e1 .zero)
  else if 3 * n == 2 * d then rne32 (cosineMix e0 e1 (.fin true 1 2))
  else refine (fun p => let c := ivExt p (cosTurnFix p n (2 * d)) 0; (cosineMix e0 e1 c.1, cosineMix e0 e1 c.2)) precisions

/-- η(t) over the valid run (R223). -/
def etaAt (bs : List Breakpoint) (t : Nat) : F32 :=
  match bs with
  | [] => 0#32
  | b0 :: _ =>
    if t < b0.tstep then b0.eta
    else
      let past := bs.filter fun b => b.tstep ≤ t
      let j := past.length - 1
      let b := bs.getD j b0
      match bs[j + 1]? with
      | none => b.eta
      | some nx =>
        if b.seg == 2 then b.eta
        else
          let n := t - b.tstep
          let d := nx.tstep - b.tstep
          if b.seg == 1 then cosineEta (f32 b.eta) (f32 nx.eta) n d
          else rne32 ((f32 b.eta).add (((f32 nx.eta).sub (f32 b.eta)).mul (.fin false n d)))

/-! ### Matrix arithmetic (R243, R244) -/

/-- A compensated sum of rounded products, ascending, resolved. -/
def dot (a b : List F32) : F32 := resolve ((List.zip a b).foldl (fun p x => knAdd p (fmul x.1 x.2)) pair0)

abbrev Mat := List (List F32)

def matCol (m : Mat) (j : Nat) : List F32 := m.map fun r => r.getD j 0#32
def matT (m : Mat) (n : Nat) : Mat := (List.range n).map (matCol m)

/-- Product of a matrix with one of `n` columns, entries formed as the Gram products are. -/
def matMul (a b : Mat) (n : Nat) : Mat := let bt := matT b n; a.map fun r => bt.map fun c => dot r c

def matMap (f : Nat → Nat → F32 → F32) (a : Mat) : Mat := a.mapIdx fun i r => r.mapIdx fun j x => f i j x

/-- One column of the Cholesky factor: pivots are tested before their square root. `l` holds the rows found so far. -/
def cholCol (a : Mat) (th : F32) (j : Nat) (l : Mat) : Option Mat :=
  let lj := (l.getD j []).take j
  let piv := fsub ((a.getD j []).getD j 0#32) (dot lj lj)
  if isNan32 piv || flt piv th then none
  else
    let d := fsqrt piv
    some (l.mapIdx fun i r =>
      if i < j then r ++ [0#32]
      else if i == j then r ++ [d]
      else r ++ [fdiv (fsub ((a.getD i []).getD j 0#32) (dot (r.take j) lj)) d])

def cholFrom (a : Mat) (th : F32) : Nat → Nat → Mat → Bool
  | 0, _, _ => true
  | k + 1, j, l => match cholCol a th j l with | none => false | some l' => cholFrom a th k (j + 1) l'

/-- Whether every Cholesky pivot is at least a threshold. -/
def cholOk (a : Mat) (th : F32) : Bool := cholFrom a th a.length 0 (a.map fun _ => [])

def trace (a : Mat) : F32 := resolve ((List.range a.length).foldl (fun p i => knAdd p ((a.getD i []).getD i 0#32)) pair0)
def frob (a : Mat) : F32 := fsqrt (resolve (a.flatten.foldl (fun p x => knAdd p (fmul x x)) pair0))

/-- What a refresh leaves: the preconditioner where it is valid, damping and iterations (R244). -/
structure Refresh where
  x : Option Mat
  damped : Bool
  iters : Nat
deriving DecidableEq, Repr

/-- The Newton iteration, at most `fuel` more times. -/
def newton (damped : Bool) : Nat → Nat → Mat → Mat → Refresh
  | 0, it, _, _ => { x := none, damped := damped, iters := it }
  | fuel + 1, it, x, mm =>
    let n := x.length
    let four := rne32 (.ofNat 4)
    let five := rne32 (.ofNat 5)
    let tt := matMap (fun i j m => fdiv (fsub (if i == j then five else 0#32) m) four) mm
    let x' := matMul x tt n
    let t2 := matMul tt tt n
    let mm' := matMul (matMul t2 t2 n) mm n
    if !(x'.flatten ++ mm'.flatten).all finite32 then { x := none, damped := damped, iters := it + 1 }
    else if (matMap (fun i j m => fsub m (if i == j then fOne else 0#32)) mm').flatten.all (fun e => absGe32 (pow2 (-20)) e) then
      { x := some x', damped := damped, iters := it + 1 }
    else newton damped fuel (it + 1) x' mm'

/-- Refresh of one Gram block (R244). -/
def refresh (pe : Nat) (damp : F32) (a : Mat) : Refresh :=
  let tr := trace a
  if !finite32 tr || !flt 0#32 tr then { x := none, damped := false, iters := 0 }
  else
    let n32 := rne32 (.ofNat 32)
    let th := fdiv (fmul (pow2 (-(pe : Int))) tr) n32
    let ok0 := cholOk a th
    let a1 := if ok0 then a else let e := fdiv (fmul damp tr) n32; matMap (fun i j x => if i == j then fadd x e else x) a
    if !ok0 && !cholOk a1 th then { x := none, damped := true, iters := 0 }
    else
      let f := frob a1
      let d := finvRoot4 f
      newton (!ok0) 20 0 (matMap (fun i j _ => if i == j then d else 0#32) a1) (matMap (fun _ _ x => fdiv x f) a1)

/-! ### Positions -/

/-- Panel order: 256 × 256 panels in row-major order, positions within a panel in row-major order (R229). -/
def panelOrder (rows cols : Nat) : List (Nat × Nat) :=
  (List.range (cdiv rows 256)).flatMap fun pr => (List.range (cdiv cols 256)).flatMap fun pc =>
    (List.range (min 256 (rows - 256 * pr))).flatMap fun i => (List.range (min 256 (cols - 256 * pc))).map fun j => (256 * pr + i, 256 * pc + j)

/-- Camber counters (R247). -/
abbrev CC_P1 : Nat := 0
abbrev CC_P2 : Nat := 1
abbrev CC_SKIPPED : Nat := 2
abbrev CC_NONFINITE : Nat := 3
abbrev CC_POST_POISON : Nat := 4
abbrev CC_REFRESH : Nat := 5
abbrev CC_DAMPED : Nat := 6
abbrev CC_FALLBACK : Nat := 7
abbrev GC_PASS : Nat := 0
abbrev GC_SKIP : Nat := 1
abbrev GC_FAIL : Nat := 2
abbrev GC_HOLD : Nat := 3

/-- One position as pass 2 leaves it. -/
structure PosOut where
  w : F32
  m : F32
  v : F32
  poison : Bool
  /-- state words are written -/
  store : Bool
  d : Option F32
deriving DecidableEq, Repr

namespace State

def bf16Word (s : State) (a : Nat) : Nat × Bool := s.codeAt .bf16 a 0

/-- The master value of a position (R218). -/
def master (s : State) (l : LayerDesc) (x : Nat) : F32 × Bool :=
  let h := s.bf16Word (l.stateBase + 2 * x)
  let lo := s.bf16Word (l.stateBase + l.pb + 2 * x)
  (BitVec.ofNat 32 (h.1 * 65536 + lo.1), h.2 || lo.2)

def moment (s : State) (l : LayerDesc) (plane x : Nat) : F32 × Bool :=
  let c := s.bf16Word (l.stateBase + plane * l.pb + 2 * x)
  (BitVec.ofNat 32 (c.1 * 65536), c.2)

/-- A layer with the descriptors it names. -/
structure LayerNames where
  l : LayerDesc
  e : Coeff
  rule : Rule
  grad : OpDesc
  fwd : OpDesc
  bwd : OpDesc
  masked : Bool
  unit : Nat
  didx : Nat
deriving DecidableEq, Repr

/-- MATRIX needs rows and columns that are multiples of 32, and otherwise runs as ADAPTIVE (R242). -/
def layerNamesAt (s : State) (dbase unit didx : Nat) : LayerNames :=
  let op (i : Nat) : OpDesc := OpDesc.ofNat (s.nat (dbase + 64 * i) 64)
  let l := LayerDesc.ofNat (s.nat (dbase + 64 * didx) 64)
  let e := Coeff.ofNat (s.nat (COEFF + 64 * l.group) 64)
  let f := op l.fwdOp
  { l := l, e := e, rule := if e.rule == .matrix && (l.rows % 32 != 0 || l.cols % 32 != 0) then .adaptive else e.rule
    grad := op l.gradOp, fwd := f, bwd := op l.bwdOp
    masked := l.fwdEn && f.maskEn, unit := unit, didx := didx }

def layerNames (s : State) (r : SRef) (w : IWord) : LayerNames := s.layerNamesAt (s.ctx r).dbase (coreOf r) w.didx

/-- Whether the layer's mask removes a position, and the poison of the mask word (R227). -/
def maskedAt (s : State) (n : LayerNames) (r c : Nat) : Bool × Bool :=
  if n.masked then let m := s.maskAt n.fwd r c; (!m.1, m.2.2) else (false, false)

/-- The gradient of a position decoded into FP32. -/
def gradAt (s : State) (n : LayerNames) (r c : Nat) : F32 × Bool := let v := s.valueAt n.grad r c; (rne32 v.1, v.2)

/-! ### Weight copies (R229, R238 to R240) -/

/-- The conversion of one copy; `t` marks the backward copy. -/
def copyConv (s : State) (n : LayerNames) (t : Bool) (step : Nat) : Conv × Fmt :=
  let o := if t then n.bwd else n.fwd
  let f := siteFmt .camber (o.fmt.getD { elem := .bf16, kind := .none, block := 128, rot := 0, smooth := false, outlier := false })
  let ctl := siteCtl .camber (Ctl.ofWord s.inDebug n.e.ctlWord)
  let inner := if t then n.l.rows else n.l.cols
  ({ s.convTo .camber o f ctl { seed := s.plan.seed, sid := streamId s.plan.leaf (0x840 + n.unit) 0x05, inst := (ctl.inst + (if t then 3 else 2)) % 65536, step := step } 0 0 inner with
     inner := inner, flat := some (n.l.cols, t), raw32 := false }, f)

/-- Presented values of a copy's rows from master values in storage order, masked positions +0. -/
def copyRowsOf (n : LayerNames) (t : Bool) (ws : List PV) : List (List PV) :=
  let at' (r c : Nat) : PV := ws.getD (r * n.l.cols + c) (.zero, false)
  if t then (List.range n.l.cols).map fun c => (List.range n.l.rows).map fun r => at' r c
  else (List.range n.l.rows).map fun r => (List.range n.l.cols).map fun c => at' r c

def copyGone (s : State) (n : LayerNames) (t : Bool) : List (List Bool) :=
  if !n.masked then []
  else if t then (List.range n.l.cols).map fun c => (List.range n.l.rows).map fun r => (s.maskedAt n r c).1
  else (List.range n.l.rows).map fun r => (List.range n.l.cols).map fun c => (s.maskedAt n r c).1

/-- Amax of a copy's presented values after smoothing and rotation, masked positions left out (R229). -/
def copyAmax (s : State) (n : LayerNames) (t : Bool) (ws : List PV) : Amax :=
  let q := (s.copyConv n t 0).1
  let gone := s.copyGone n t
  ((copyRowsOf n t ws).mapIdx fun i row =>
    let g := gone.getD i []
    amaxOf (((q.prepare row).zipIdx.filter fun x => !g.getD x.2 false).map (·.1))).foldl Amax.join {}

/-- The kept elements of each group of 8 in its first slots, the rest filled (R99). -/
def compressRow (gone : List Bool) (cells : List OutCell) : List OutCell :=
  (runs 8 0 (List.zip cells (gone ++ List.replicate cells.length false))).flatMap fun g =>
    let kept := (g.filter fun x => !x.2).map (·.1)
    kept.take 4 ++ List.replicate (4 - kept.length) { code := 0 }

/-- One copy written with the tensor scale given; its counters, poison and scale come back (R238). -/
def writeCopy (s : State) (n : LayerNames) (t : Bool) (step : Nat) (st : F32 × List Nat × Bool) (ws : List PV) : State × Bool :=
  let o := if t then n.bwd else n.fwd
  let qf := s.copyConv n t step
  let f := qf.2
  let g := Agent.camber n.unit
  let bank := Bank.camberConv n.unit
  let gone := s.copyGone n t
  let out := qf.1.run (if f.kind == .e4m3t then f32 st.1 else .one) st.2.2 gone (copyRowsOf n t ws)
  let w := out.zipIdx.foldl (fun (a : State × Nat) x =>
    let row := x.1
    let i := x.2
    if o.maskEn then
      let y := a.1.writeElems g f.elem (o.base + i * o.stride) 0 (cdiv row.cells.length 8 * 4) (compressRow (gone.getD i []) row.cells)
      ((if f.kind == .none then y.1 else y.1.writeScales g (o.bscale + i * o.blocks) row.scales), a.2 + y.2)
    else let y := a.1.writeRow g o f i 0 row; (y.1, a.2 + y.2)) (s, 0)
  let s1 := if f.kind == .e4m3t then w.1.writeBy g o.tscale ((natLE 4 st.1.toNat).map fun b => (b, st.2.2)) else w.1
  let inv := match qf.1.smooth with | some fs => smoothInvalid fs | none => 0
  (((s1.bumps bank (out.flatMap (·.counts) ++ st.2.1)).bump bank POISONED w.2).bump bank SCALE_INVALID inv, rowsPoisoned out || st.2.2)

/-- The backward copy's mask tiles: transposes of the repaired forward tiles (R227). -/
def writeBwdMask (s : State) (n : LayerNames) : State :=
  if !(n.masked && n.l.bwdEn) then s
  else
    (List.range (cdiv n.l.rows 8)).foldl (fun s tr => (List.range (cdiv n.l.cols 8)).foldl (fun (s : State) tc =>
      let m := s.maskTile n.fwd (8 * tr) (8 * tc)
      let bs := (List.range 8).map fun r => (BitVec.ofNat 8 (((List.range 8).map fun c => b2n (bitOf (m.2.1.getD c 0) r) * 2 ^ c).sum), m.2.2)
      s.writeBy (.camber n.unit) (maskTileAddr n.bwd (8 * tc) (8 * tr)) bs) s) s

/-! ### Telemetry (R245) -/

def camberCtl (s : State) : Nat := s.nat CAMBER_CTL 64
def telSteps (s : State) : Nat := min (max (fld s.camberCtl 399 384) 1) 4096
def telLayers (s : State) : Nat := min (max (fld s.camberCtl 383 371) 1) 4096
def telRecord (s : State) (step : Nat) : Nat := fld s.camberCtl 447 400 + step % s.telSteps * (384 + 64 * s.telLayers)
def telLayer (s : State) (step slot : Nat) : Nat := s.telRecord step + 384 + 64 * slot

/-- Bits [hi:lo] of a 64-byte record replaced. -/
def setRec (s : State) (a : Nat) (fs : List (Nat × Nat × Nat)) : State :=
  s.writeNat a 64 (fs.foldl (fun v f => setFld v f.1 f.2.1 f.2.2) (s.nat a 64))

/-! ### Pass 1 (R229, R230) -/

/-- Byte ranges of a layer's planes and gradient. -/
def layerReads (n : LayerNames) (planes : List Nat) (grad : Bool) : List (Nat × Nat) :=
  (planes.map fun p => (n.l.stateBase + p * n.l.pb, 2 * (n.l.rows * n.l.cols))) ++
  (if grad then operandReads n.grad false false 0 n.l.rows 0 n.l.cols else []) ++
  (if n.masked then [(n.fwd.maskAddr, 8 * (cdiv n.l.rows 8 * cdiv n.l.cols 8))] else [])

/-- Master values in storage order as the copies are presented them, masked positions +0. -/
def masterList (s : State) (n : LayerNames) : List PV :=
  (List.range (n.l.rows * n.l.cols)).map fun x =>
    if (s.maskedAt n (x / n.l.cols) (x % n.l.cols)).1 then (.zero, false) else let w := s.master n.l x; (f32 w.1, w.2)

/-- What pass 1 of a layer computes. -/
def pass1 (s : State) (n : LayerNames) (step : Nat) : LayerRes :=
  let r := (panelOrder n.l.rows n.l.cols).foldl (fun (a : (F32 × F32) × (F32 × F32) × Bool × Bool) rc =>
    let mk := s.maskedAt n rc.1 rc.2
    if mk.1 then (a.1, a.2.1, a.2.2.1, a.2.2.2 || mk.2)
    else
      let w := s.master n.l (rc.1 * n.l.cols + rc.2)
      let g := s.gradAt n rc.1 rc.2
      (knAdd a.1 (fmul w.1 w.1), knAdd a.2.1 (fmul g.1 g.1), a.2.2.1 || !finite32 w.1 || !finite32 g.1, a.2.2.2 || w.2 || g.2 || mk.2))
    (pair0, pair0, false, false)
  let ws := s.masterList n
  let af := if n.l.fwdEn then s.copyAmax n false ws else {}
  let ab := if n.l.bwdEn then s.copyAmax n true ws else {}
  { step := step, addr := n.l.stateBase, af := af, ab := ab, wnorm := fsqrt (resolve r.1), gnorm := fsqrt (resolve r.2.1),
    gs := r.2.1.1, gc := r.2.1.2, norm := n.l.normEn, poison := r.2.2.2 || af.poison || ab.poison, nf := r.2.2.1 }

/-- UP1: the layer's results kept, its faults set, its record fields written (R229, R230). -/
def up1Work (s : State) (n : LayerNames) (step : Nat) : State :=
  let p := s.pass1 n step
  let s1 := s.noteReads (layerReads n [0, 1] true)
  let s2 := { s1 with layers := aset s1.layers (n.unit, n.didx) p }
  let s3 := s2.faultIf p.poison step FB_POISON
  let s4 := s3.faultIf (!finite32 p.gnorm || (p.nf && finite32 p.wnorm)) step FB_NONFINITE_G
  let s5 := s4.faultIf (!finite32 p.wnorm) step FB_NONFINITE_W
  let s6 := s5.setRec (s5.telLayer step n.l.telSlot)
    [(511, 496, n.didx), (495, 492, n.unit), (491, 460, p.wnorm.toNat), (459, 428, p.gnorm.toNat),
     (395, 364, p.af.word.toNat), (363, 332, p.ab.word.toNat), (235, 235, b2n p.poison)]
  s6.bump (.camber n.unit) CC_P1

def doUp1 (s : State) (r : SRef) (w : IWord) : State :=
  let s1 := s.up1Work (s.layerNames r w) (s.stream r).step
  s1.setStream r (issued r (s1.stream r) w true false)

/-! ### Matrix blocks (R242 to R244) -/

/-- Addresses of the parts of a preconditioner region: Gram block, preconditioner block, status byte. -/
def precondAddrs (n : LayerNames) (left : Bool) (b : Nat) : Nat × Nat × Nat :=
  let nL := if n.e.left then n.l.rows / 32 else 0
  let nR := if n.e.right then n.l.cols / 32 else 0
  let a := n.l.precond
  if left then (a + 4096 * b, a + 4096 * nL + 4096 * b, a + 8192 * (nL + nR) + b)
  else (a + 8192 * nL + 4096 * b, a + 8192 * nL + 4096 * nR + 4096 * b, a + 8192 * (nL + nR) + nL + b)

def readMat (s : State) (a : Nat) : Mat := (List.range 32).map fun i => (List.range 32).map fun j => (s.f32At (a + 128 * i + 4 * j)).1
def matPoison (s : State) (a i j : Nat) : Bool := (s.f32At (a + 128 * i + 4 * j)).2

def writeMat (s : State) (a : Nat) (m : Mat) (p : Nat → Nat → Bool) : State :=
  m.zipIdx.foldl (fun s r => r.1.zipIdx.foldl (fun (s : State) x => s.writeF32 (a + 128 * r.2 + 4 * x.2) (x.1, p r.2 x.2)) s) s

/-- The clipped gradient of a position, masked positions +0 (R243). -/
def clipped (s : State) (n : LayerNames) (zeta : F32) (r c : Nat) : F32 × Bool :=
  let mk := s.maskedAt n r c
  if mk.1 then (0#32, mk.2) else let g := s.gradAt n r c; (fmul g.1 zeta, g.2 || mk.2)

/-- Lines of the clipped gradient that a Gram block's product is formed of: its rows, or its columns. -/
def gramLines (s : State) (n : LayerNames) (zeta : F32) (left : Bool) (b : Nat) : List (List (F32 × Bool)) :=
  (List.range 32).map fun i =>
    if left then (List.range n.l.cols).map fun c => s.clipped n zeta (32 * b + i) c
    else (List.range n.l.rows).map fun r => s.clipped n zeta r (32 * b + i)

/-- One Gram block updated (R243). -/
def updateGram (s : State) (n : LayerNames) (zeta : F32) (left : Bool) (b : Nat) : State :=
  let a := (precondAddrs n left b).1
  let ls := s.gramLines n zeta left b
  let vs := ls.map fun l => l.map (·.1)
  let ps := ls.map fun l => l.any (·.2)
  let old := s.readMat a
  let m := matMap (fun i j x => fadd (fmul n.e.a2 x) (fmul n.e.b2 (dot (vs.getD i []) (vs.getD j [])))) old
  s.writeMat a m fun i j => s.matPoison a i j || ps.getD i false || ps.getD j false

def precondBlocks (n : LayerNames) : List (Bool × Nat) :=
  (if n.e.left then (List.range (n.l.rows / 32)).map fun b => (true, b) else []) ++
  (if n.e.right then (List.range (n.l.cols / 32)).map fun b => (false, b) else [])

def blockValid (s : State) (n : LayerNames) (left : Bool) (b : Nat) : Bool := bitOf (s.byte (precondAddrs n left b).2.2).1.toNat 7

/-- Whether every block that sides names for the tile of a position is valid (R243). -/
def tileValid (s : State) (n : LayerNames) (r c : Nat) : Bool :=
  (!n.e.left || s.blockValid n true (r / 32)) && (!n.e.right || s.blockValid n false (c / 32))

/-- u of one position of a preconditioned tile: PL × MH × PR (R243). -/
def precondAt (s : State) (n : LayerNames) (mh : Nat → Nat → F32 × Bool) (r c : Nat) : F32 × Bool :=
  let r0 := r / 32 * 32
  let c0 := c / 32 * 32
  let mm := (List.range 32).map fun i => (List.range 32).map fun j => mh (r0 + i) (c0 + j)
  let tp := mm.any fun l => l.any (·.2)
  let m0 : Mat := mm.map fun l => l.map (·.1)
  let la := (precondAddrs n true (r / 32)).2.1
  let ra := (precondAddrs n false (c / 32)).2.1
  -- only row r of the left product is needed
  let row : List F32 := if n.e.left then (List.range 32).map fun j => dot ((s.readMat la).getD (r - r0) []) (matCol m0 j) else m0.getD (r - r0) []
  let u := if n.e.right then dot row (matCol (s.readMat ra) (c - c0)) else row.getD (c - c0) 0#32
  let lp := n.e.left && (List.range 32).any fun j => s.matPoison la (r - r0) j
  let rp := n.e.right && (List.range 32).any fun i => s.matPoison ra i (c - c0)
  (u, tp || lp || rp)

/-- Refresh of one block (R244). -/
def refreshBlock (s : State) (n : LayerNames) (left : Bool) (b : Nat) : State :=
  let p := precondAddrs n left b
  let a := s.readMat p.1
  let psn := s.poisoned p.1 4096
  let f := refresh n.e.pe n.e.damp a
  let st := b2n f.x.isSome * 128 + b2n f.damped * 64 + f.iters * 2
  let s1 := match f.x with | some m => s.writeMat p.2.1 m fun _ _ => psn | none => s
  let s2 := (s1.write p.2.2 [(BitVec.ofNat 8 st, psn)]).bump (.camber n.unit) CC_REFRESH
  let s3 := if f.damped then s2.bump (.camber n.unit) CC_DAMPED else s2
  if f.x.isNone then s3.bump (.camber n.unit) CC_FALLBACK else s3

/-! ### Pass 2 (R237 to R239) -/

/-- What pass 2 of a layer takes besides its words. -/
structure Pass2 where
  n : LayerNames
  eta : F32
  c1 : F32
  c2 : F32
  zeta : F32
deriving DecidableEq, Repr

/-- m and v of a position before narrowing, and the poison of what they are formed from (R237). -/
def newMoments (s : State) (q : Pass2) (r c : Nat) : F32 × F32 × Bool :=
  let x := r * q.n.l.cols + c
  let g0 := s.gradAt q.n r c
  let g := fmul g0.1 q.zeta
  let mo := s.moment q.n.l 2 x
  let m := fadd (fmul q.n.e.a1 mo.1) (fmul q.n.e.b1 g)
  let vo := s.moment q.n.l 3 x
  let mom := q.n.rule == .momentum
  let v := if mom then vo.1 else fadd (fmul q.n.e.a2 vo.1) (fmul q.n.e.b2 (fmul g g))
  (m, v, g0.2 || mo.2 || (!mom && vo.2))

/-- mh of a position for the tile products, masked positions +0. -/
def mhAt (s : State) (q : Pass2) (r c : Nat) : F32 × Bool :=
  if (s.maskedAt q.n r c).1 then (0#32, false) else let m := s.newMoments q r c; (fdiv m.1 q.c1, m.2.2)

/-- One position of pass 2 (R237). -/
def pass2At (s : State) (q : Pass2) (r c : Nat) : PosOut :=
  let n := q.n
  let mk := s.maskedAt n r c
  if mk.1 then { w := 0#32, m := 0#32, v := 0#32, poison := mk.2, store := true, d := none }
  else
    let x := r * n.l.cols + c
    let w := s.master n.l x
    if !n.e.active then { w := w.1, m := 0#32, v := 0#32, poison := w.2 || mk.2, store := false, d := none }
    else
      let mv := s.newMoments q r c
      let mh := fdiv mv.1 q.c1
      let u : F32 × Bool :=
        match n.rule with
        | .momentum => (mh, false)
        | .matrix => if s.tileValid n r c then s.precondAt n (s.mhAt q) r c else (fdiv mh (fadd (fsqrt (fdiv mv.2.1 q.c2)) n.e.eps), false)
        | .adaptive => (fdiv mh (fadd (fsqrt (fdiv mv.2.1 q.c2)) n.e.eps), false)
      let d := fmul q.eta (fadd u.1 (fmul n.e.lambda w.1))
      let w' := rne32 ((f32 w.1).sub ((f32 d).mul (.dyadic false 1 (-n.l.kexp))))
      { w := w', m := mv.1, v := mv.2.1, poison := w.2 || mk.2 || mv.2.2 || u.2, store := true, d := some d }

/-- The state of a position written: HI and LO split, m and v narrowed to BF16 with their instances (R237, R239). -/
def writeState (s : State) (q : Pass2) (step x : Nat) (o : PosOut) : State :=
  if !o.store then s
  else
    let n := q.n
    let ctl := siteCtl .camber (Ctl.ofWord s.inDebug n.e.ctlWord)
    let byteFor (i : Nat) : Nat :=
      if ctl.round == .sr then
        RandSite.byte { seed := s.plan.seed, sid := streamId s.plan.leaf (0x840 + n.unit) 0x05, inst := (ctl.inst + i) % 65536, step := step } false (x % 128) (x / 128)
      else 0
    let put (s : State) (plane v : Nat) : State :=
      s.writeBy (.camber n.unit) (n.l.stateBase + plane * n.l.pb + 2 * x) ((natLE 2 v).map fun b => (b, o.poison))
    let s1 := put (put s 0 (o.w.toNat / 65536)) 1 (o.w.toNat % 65536)
    let masked := o.d.isNone
    let nm := if masked then { code := 0 : Narrow } else Elem.bf16.narrow ctl.round ctl.prop false (byteFor 0) (f32 o.m)
    let nv := if masked then { code := 0 : Narrow } else Elem.bf16.narrow ctl.round ctl.prop false (byteFor 1) (f32 o.v)
    let s2 := (put s1 2 nm.code).bumps (.camberConv n.unit) nm.counts
    if n.rule == .momentum && !masked then s2 else (put s2 3 nv.code).bumps (.camberConv n.unit) nv.counts

/-- The tensor scale of a copy from its pass-1 amax (R65, R238). -/
def scaleFromAmax (s : State) (n : LayerNames) (t : Bool) (a : Amax) : F32 × List Nat × Bool :=
  let qf := s.copyConv n t 0
  if qf.2.kind == .e4m3t then let x := qf.1.tensorScaleOf a; (x.1, x.2, a.poison) else (fOne, [], false)

/-- Whether a copy is written with a tensor scale of its own: scale_kind 3 (R238). -/
def copyScaled (s : State) (n : LayerNames) (t : Bool) : Bool := (if t then n.l.bwdEn else n.l.fwdEn) && (s.copyConv n t 0).2.kind == .e4m3t

/-- UP2: pass 2 over one layer, or its completion without effect under SKIP (R146, R233, R237 to R245). -/
def up2Work (s : State) (n : LayerNames) (step : Nat) (skip : Bool) : State :=
  let rec' := s.telLayer step n.l.telSlot
  if skip then
    (s.setRec rec' [(427, 396, 0), (232, 232, 1)]).bump (.camber n.unit) CC_SKIPPED
  else
    let tg := s.nat (GROUP_CTR + 8 * n.l.group) 8
    let zeta := BitVec.ofNat 32 (fld (s.nat GATE_REC 64) 397 366)
    let curve := validRun none ((List.range 64).map fun j => Breakpoint.ofNat (s.nat (SCHED + 1024 * n.e.curve + 16 * j) 16))
    let q : Pass2 := { n := n, eta := etaAt curve tg, c1 := if n.e.bc1 then biasCorr n.e.a1 tg else fOne,
                       c2 := if n.e.bc2 then biasCorr n.e.a2 tg else fOne, zeta := zeta }
    let res : LayerRes := aget s.layers (n.unit, n.didx)
      { step := step, addr := 0, af := {}, ab := {}, wnorm := 0#32, gnorm := 0#32, gs := 0#32, gc := 0#32, norm := false, poison := false, nf := false }
    let matrix := n.rule == .matrix && n.e.active
    -- blocks not valid in this step
    let fb := if matrix then ((precondBlocks n).filter fun b => !s.blockValid n b.1 b.2).length else 0
    let s0 := s.noteReads (layerReads n (if n.rule == .momentum then [0, 1, 2] else [0, 1, 2, 3]) true)
    let s1 := if matrix then (precondBlocks n).foldl (fun s b => s.updateGram n zeta b.1 b.2) s0 else s0
    let outs := (panelOrder n.l.rows n.l.cols).map fun rc => (rc.1 * n.l.cols + rc.2, s.pass2At q rc.1 rc.2)
    let us := outs.foldl (fun p o => match o.2.d with | some d => knAdd p (fmul d d) | none => p) pair0
    let unorm := if n.e.active then rne32 ((f32 (fsqrt (resolve us))).mul (.dyadic false 1 (-n.l.kexp))) else 0#32
    let s2 := outs.foldl (fun s o => s.writeState q step o.1 o.2) s1
    let nonf := (outs.filter fun o => o.2.d.isSome && !finite32 o.2.w).length
    let psn := (outs.filter fun o => o.2.poison).length
    -- copies of the new master
    let ws : List PV := (List.range (n.l.rows * n.l.cols)).map fun x =>
      match outs.find? (·.1 == x) with
      | some o => (f32 o.2.w, o.2.poison)
      | none => (.zero, false)
    let sf := s.scaleFromAmax n false res.af
    let sb := s.scaleFromAmax n true res.ab
    let s3 := if n.l.fwdEn then s2.writeCopy n false step sf ws else (s2, false)
    let s4 := if n.l.bwdEn then s3.1.writeCopy n true step sb ws else (s3.1, false)
    let s5 := s4.1.writeBwdMask n
    let tail := n.l.tail
    let s6 := if s.copyScaled n false then s5.writeNat (tail + 60) 4 sf.1.toNat else s5
    let s7 := if s.copyScaled n true then s6.writeNat (tail + 56) 4 sb.1.toNat else s6
    let s8 := s7.writeNat (tail + 48) 8 step
    let doRefresh := matrix && tg % n.e.interval == 0
    let s9 := if doRefresh then (precondBlocks n).foldl (fun s b => s.refreshBlock n b.1 b.2) s8 else s8
    let anyP := psn > 0 || s3.2 || s4.2
    let s10 := s9.setRec rec'
      [(427, 396, unorm.toNat), (331, 300, if s.copyScaled n false then sf.1.toNat else 0), (299, 268, if s.copyScaled n true then sb.1.toNat else 0),
       (267, 252, min fb 65535), (251, 236, min nonf 65535), (234, 234, b2n anyP), (233, 233, b2n doRefresh), (232, 232, 0)]
    let u := Bank.camber n.unit
    let s11 := (((s10.bump u CC_P2).bump u CC_NONFINITE nonf).bump u CC_POST_POISON psn)
    if anyP then { s11 with job := { s11.job with needRecovery := true } } else s11

def doUp2 (s : State) (r : SRef) (w : IWord) : State :=
  let s1 := s.up2Work (s.layerNames r w) (s.stream r).step s.job.lastSkip
  s1.setStream r (issued r (s1.stream r) w true false)

/-- Both copies of a layer written from its present master, with the tail's scales where it holds them (R240): the
state, and whether poison was written. -/
def copyLayer (s : State) (n : LayerNames) : State × Bool :=
  let tail := n.l.tail
  let step := s.nat (tail + 48) 8
  let ws := s.masterList n
  let scale (s : State) (t : Bool) (a : Nat) : (F32 × List Nat × Bool) × State :=
    let k := s.f32At a
    if !s.copyScaled n t then (s.scaleFromAmax n t {}, s)
    else if !isZero32 k.1 then ((k.1, [], k.2), s)
    else
      let x := s.scaleFromAmax n t (s.copyAmax n t ws)
      (x, s.writeF32 a (x.1, x.2.2))
  let s0 := s.noteReads (layerReads n [0, 1] false)
  let s1 := if n.l.fwdEn then let x := scale s0 false (tail + 60); x.2.writeCopy n false step x.1 ws else (s0, false)
  let s2 := if n.l.bwdEn then let x := scale s1.1 true (tail + 56); x.2.writeCopy n true step x.1 ws else (s1.1, false)
  (s2.1.writeBwdMask n, s1.2 || s2.2)

/-- UCOPY at the head (R240). -/
def doUcopy (s : State) (r : SRef) (w : IWord) : State :=
  let x := s.copyLayer (s.layerNames r w)
  let s3 := x.1.faultIf x.2 (s.stream r).step FB_POISON
  s3.setStream r (issued r (s3.stream r) w true false)

end State

end Sys2Proof.Machine
end

