-- ==== Sys2Proof/Machine/FloorPlan.lean ====
section
/-! DEFINITION. The floor plan: binding of good units to slots, retirement, and the report (R10 to R21). -/

namespace Sys2Proof.Machine

/-- Unit kind codes (R21). -/
abbrev UK_CORE : Nat := 1
abbrev UK_CCP : Nat := 2
abbrev UK_CLMEM : Nat := 3
abbrev UK_TRESTLE : Nat := 4
abbrev UK_ROUTER : Nat := 5
abbrev UK_CLTRACE : Nat := 6
abbrev UK_DMP : Nat := 7
abbrev UK_HBM : Nat := 8
abbrev UK_CAMBER : Nat := 9
abbrev UK_VPORT : Nat := 10
abbrev UK_VLANE : Nat := 11
abbrev UK_DDR : Nat := 12
abbrev UK_ETH : Nat := 13
abbrev UK_REDUCE : Nat := 14
abbrev UK_ABUT : Nat := 15

/-- Reason codes (R21). -/
abbrev UR_FUSE : Nat := 1
abbrev UR_LOGIC : Nat := 2
abbrev UR_MEMORY : Nat := 3
abbrev UR_UNCORRECTED : Nat := 4
abbrev UR_WATCHDOG : Nat := 5
abbrev UR_LOAD : Nat := 6
abbrev UR_RECURRED : Nat := 7
abbrev UR_AGEING : Nat := 8
abbrev UR_EYE : Nat := 9
abbrev UR_HOST : Nat := 10

/-- Units of a kind on one pier (R10). -/
def unitCount : Nat → Nat
  | 1 => 2176 | 2 => 68 | 3 => 68 | 4 => 68 | 5 => 68 | 6 => 68 | 7 => 4 | 8 => 12 | 9 => 12 | 10 => 16 | 11 => 64
  | 12 => 8 | 13 => 2 | 14 => 2 | 15 => 5 | _ => 0

/-- The fifteen kinds in report order. -/
def unitKinds : List Nat := (List.range 15).map (· + 1)

/-- Physical cores of a physical cluster (R11). -/
def clusterCores (c : Nat) : List Nat := (List.range 32).map (32 * c + ·)

/-- Physical clusters of a deck die. -/
def dieClusters (d : Nat) : List Nat := (List.range 17).map (17 * d + ·)

/-- Kinds of the units that make a cluster eligible (R13 step 1). -/
def clusterKinds : List Nat := [UK_CCP, UK_CLMEM, UK_TRESTLE, UK_ROUTER, UK_CLTRACE]

namespace State

/-- A unit that is neither BAD nor RETIRED. -/
def unitGood (s : State) (kind i : Nat) : Bool := (aget? s.fp.units (kind, i)).isNone

def clusterEligible (s : State) (c : Nat) : Bool := clusterKinds.all fun k => s.unitGood k c
def goodCores (s : State) (c : Nat) : List Nat := (clusterCores c).filter (s.unitGood UK_CORE)

/-! ### Binding at reconciliation (R13) -/

/-- Clusters of a die that are bound, ascending: of the eligible ones, the sixteen with the fewest bad cores, ties to
the lower index. -/
def boundClusters (s : State) (d : Nat) : List Nat :=
  let el := (dieClusters d).filter s.clusterEligible
  let bad (c : Nat) := 32 - (s.goodCores c).length
  el.filter fun c => (el.filter fun c' => bad c' < bad c || (bad c' == bad c && c' < c)).length < 16

/-- Good cores of a die's reserve clusters whose CCP is good, ascending (R13 steps 5 and 6). -/
def reserveCores (s : State) (d : Nat) (bound : List Nat) : List Nat :=
  ((dieClusters d).filter fun c => !bound.contains c && s.unitGood UK_CCP c).flatMap s.goodCores

/-- Core slots of a die served by the good cores of their own clusters, and those left unfilled. -/
def ownSlots (s : State) (d : Nat) (bound : List Nat) : List (Nat × Nat) × List Nat :=
  let at' (i c : Nat) := (s.goodCores c).zipIdx.map fun x => (32 * (16 * d + i) + x.2, x.1)
  let empty (i c : Nat) := (List.range (32 - (s.goodCores c).length)).map fun j => 32 * (16 * d + i) + (s.goodCores c).length + j
  (bound.zipIdx.flatMap fun x => at' x.2 x.1, bound.zipIdx.flatMap fun x => empty x.2 x.1)

/-- The bindings of one die. -/
def bindDie (s : State) (d : Nat) : List (Nat × Nat) × List (Nat × Nat) :=
  let b := s.boundClusters d
  let o := s.ownSlots d b
  (b.zipIdx.map fun x => (16 * d + x.2, x.1), o.1 ++ List.zip o.2 (s.reserveCores d b))

/-- The report generation after an action that began at `before`: raised by one where the action has changed the state
or binding of a unit (R20). -/
def fpSettle (before : FloorPlan) (s : State) : State :=
  if s.fp.units == before.units && s.fp.coreBind == before.coreBind && s.fp.clusterBind == before.clusterBind then s
  else { s with fp := { s.fp with gen := (before.gen + 1) % 65536 } }

/-- Reconciliation: every die bound afresh from the units that are good (R13). -/
def bindAll (s : State) : State :=
  let ds : List (List (Nat × Nat) × List (Nat × Nat)) := (List.range 4).map fun d => s.bindDie d
  let cl : List (Nat × Nat) := ds.flatMap fun x => x.1
  let co : List (Nat × Nat) := ds.flatMap fun x => x.2
  { s with fp := { s.fp with clusterBind := cl, coreBind := co, reduced := [], recovery := [] } }

/-- A unit marked not good; the first mark stands. -/
def markUnit (s : State) (kind i state source reason : Nat) : State :=
  if s.unitGood kind i && i < unitCount kind then
    { s with fp := { s.fp with units := aset s.fp.units (kind, i) { state := state, source := source, reason := reason } } }
  else s

/-- A unit retired in service. -/
def markRetired (s : State) (kind i reason : Nat) : State := s.markUnit kind i 3 3 reason

/-! ### Memory behind a slot whose binding changes (R18) -/

/-- A range of addresses as an untouched memory holds it. -/
def emptyRange (s : State) (a n : Nat) : State :=
  { s with mem := s.mem.filter fun c => !(a ≤ c.1 && c.1 < a + n), ecc := s.ecc.filter fun c => !(a ≤ c.1 && c.1 < a + n) }

/-- A core slot given a physical core: the core's own memory lies behind the window. -/
def bindCore (s : State) (slot phys : Nat) : State :=
  let rec' := s.fp.fRetired.contains phys
  { s with fp := { s.fp with coreBind := aset s.fp.coreBind slot phys
                             recovery := if rec' then slot :: s.fp.recovery.filter (· != slot) else s.fp.recovery.filter (· != slot) } }.emptyRange
    (coreBase slot) 0x80000

def unbindCore (s : State) (slot : Nat) : State :=
  { s with fp := { s.fp with coreBind := adel s.fp.coreBind slot, recovery := s.fp.recovery.filter (· != slot) } }.emptyRange (coreBase slot) 0x80000

/-- The core slot a physical core serves. -/
def slotOfCore (s : State) (phys : Nat) : Option Nat := (s.fp.coreBind.find? fun b => b.2 == phys).map (·.1)
def slotOfCluster (s : State) (c : Nat) : Option Nat := (s.fp.clusterBind.find? fun b => b.2 == c).map (·.1)

/-- Spare cores of a die in the order in which R16 takes them. -/
def dieSpares (s : State) (d : Nat) : List Nat :=
  let all := ((dieClusters d).filter fun c => (s.slotOfCluster c).isNone && s.unitGood UK_CCP c).flatMap fun c =>
    (s.goodCores c).filter fun p => (s.slotOfCore p).isNone
  all.filter (fun p => !s.fp.fRetired.contains p) ++ all.filter fun p => s.fp.fRetired.contains p

/-! ### Reduced placement (R16 step 3, R19) -/

/-- Directory entry of a cluster slot. -/
def reducedEntry (s : State) (cs : Nat) : Nat := s.nat (REDUCED_DIR + 32 * cs) 32

/-- Whether the plan holds an alternative set for the loss of a core slot, and the cluster slot has not used one. -/
def reducedReady (s : State) (slot : Nat) : Bool :=
  s.plan.loaded && !(s.fp.reduced.any fun r => r.1 == slot / 32) && bitOf (fld (s.reducedEntry (slot / 32)) 207 176) (slot % 32)

/-- A cluster slot switched to the alternative set for the loss of a core slot: its 32 records of contexts are written
over the slot's stream contexts. -/
def useReduced (s : State) (slot : Nat) : State :=
  let cs := slot / 32
  let src := fld (s.reducedEntry cs) 255 208 + 2048 * (slot % 32)
  { s.write (CTX_BASE + 2048 * cs) (s.bytes src 2048) with fp := { s.fp with reduced := aset s.fp.reduced cs slot } }

/-! ### Retirement (R16, R17) -/

/-- A core retired: its slot goes to a spare of the die, or to the reduced placement; otherwise the pier is lost. -/
def retireCore (s : State) (phys reason : Nat) : State × Bool :=
  let s1 := s.markRetired UK_CORE phys reason
  match s.slotOfCore phys with
  | none => (s1, false)
  | some k =>
    let s2 := s1.unbindCore k
    match (s2.dieSpares (phys / 544)).head? with
    | some p => (s2.bindCore k p, false)
    | none => if s2.reducedReady k then (s2.useReduced k, false) else (s2, true)

/-- The F-engine of a core retired: its slot goes to a spare core of the die, or it stays in recovery mode (R117). -/
def retireFEngine (s : State) (phys : Nat) : State :=
  let s1 := { s with fp := { s.fp with fRetired := phys :: s.fp.fRetired.filter (· != phys) } }
  match s1.slotOfCore phys with
  | none => s1
  | some k =>
    match (s1.dieSpares (phys / 544)).head? with
    | some p => (s1.unbindCore k).bindCore k p
    | none => { s1 with fp := { s1.fp with recovery := k :: s1.fp.recovery.filter (· != k) } }

/-- Cores retired one after another. -/
def retireCores (s : State) (ps : List Nat) (reason : Nat) : State × Bool :=
  ps.foldl (fun a p => let r := a.1.retireCore p reason; (r.1, a.2 || r.2)) (s, false)

/-- Whether a reserve cluster can take over a cluster slot (R17). -/
def takesOver (s : State) (c : Nat) : Bool :=
  (s.slotOfCluster c).isNone && s.clusterEligible c && (s.goodCores c).length == 32 &&
  (clusterCores c).all fun p => (s.slotOfCore p).isNone

/-- A physical cluster retired as a whole: its units and its cores. -/
def markCluster (s : State) (c reason : Nat) : State :=
  let s1 := clusterKinds.foldl (fun t k => t.markRetired k c reason) s
  (clusterCores c).foldl (fun t p => t.markRetired UK_CORE p reason) s1

/-- A bound cluster retired: its slot goes to the lowest reserve cluster that can take it; otherwise the pier is lost
(R17). -/
def retireCluster (s : State) (c reason : Nat) : State × Bool :=
  match s.slotOfCluster c with
  | none => (s, false)
  | some cs =>
    let s1 := s.markCluster c reason
    let slots := (List.range 32).map (32 * cs + ·)
    let s2 := slots.foldl (fun t k => t.unbindCore k) s1
    let s3 := { s2 with fp := { s2.fp with clusterBind := adel s2.fp.clusterBind cs } }.emptyRange (clusterBase cs) 0x800000
    match (dieClusters (c / 17)).find? s3.takesOver with
    | none => (s3, true)
    | some n =>
      let s4 := { s3 with fp := { s3.fp with clusterBind := aset s3.fp.clusterBind cs n } }
      (slots.zipIdx.foldl (fun t x => t.bindCore x.1 (32 * n + x.2)) s4, false)

/-- A unit of a cluster retired: with a bound cluster the whole cluster goes; with a reserve cluster's CCP, the cores
of that cluster that serve slots go (R13 step 6). -/
def retireClusterUnit (s : State) (kind c reason : Nat) : State × Bool :=
  match s.slotOfCluster c with
  | some _ => (s.markRetired kind c reason).retireCluster c reason
  | none =>
    let s1 := s.markRetired kind c reason
    if kind == UK_CCP then
      s1.retireCores ((clusterCores c).filter fun p => (s1.slotOfCore p).isSome) reason
    else (s1, false)

/-- A unit retired at a boundary: the state, and whether the pier is lost with it (R16, R17, R405). A lost deck-die
manager, stack, camber unit, DDR5 channel or security processor leaves the pier without a part that has no
substitute. -/
def retireOne (s : State) (kind i reason : Nat) : State × Bool :=
  if !s.unitGood kind i || i ≥ unitCount kind then (s, false)
  else if kind == UK_CORE then s.retireCore i reason
  else if 2 ≤ kind && kind ≤ 6 then s.retireClusterUnit kind i reason
  else (s.markRetired kind i reason, false)

/-! ### The report (R20, R21) -/

/-- Bound slot of a unit, 0xFFF where it has none. -/
def unitSlot (s : State) (kind i : Nat) : Nat :=
  let o := if kind == UK_CORE then s.slotOfCore i else if 2 ≤ kind && kind ≤ 6 then s.slotOfCluster i else none
  o.getD 0xFFF

/-- State, source and reason of a unit as the report gives them. -/
def unitState (s : State) (kind i : Nat) : UnitRec :=
  match aget? s.fp.units (kind, i) with
  | some u => u
  | none => { state := if kind ≤ 6 && s.unitSlot kind i == 0xFFF then 1 else 0, source := 0, reason := 0 }

def unitEntry (s : State) (kind i : Nat) : Nat :=
  let u := s.unitState kind i
  kind * 2 ^ 56 + i * 2 ^ 44 + s.unitSlot kind i * 2 ^ 32 + u.state * 2 ^ 30 + u.source * 2 ^ 28 + u.reason * 2 ^ 20

/-- Cores in a state. -/
def coresIn (s : State) (st : Nat) : Nat := ((List.range 2176).filter fun p => (s.unitState UK_CORE p).state == st).length

def reportHeader (s : State) : Nat :=
  s.pierId * 2 ^ 116 + 0xB1 * 2 ^ 108 + s.fp.gen * 2 ^ 92 + 2641 * 2 ^ 80 + s.fp.coreBind.length * 2 ^ 68
    + s.coresIn 1 * 2 ^ 56 + s.coresIn 3 * 2 ^ 44 + s.coresIn 2 * 2 ^ 32

/-- The floor plan report. -/
def floorReport (s : State) : List Byte :=
  natLE 16 s.reportHeader ++ unitKinds.flatMap fun k => (List.range (unitCount k)).flatMap fun i => natLE 8 (s.unitEntry k i)

end State

end Sys2Proof.Machine
end

