-- ==== Sys2Proof/Machine/Trace.lean ====
section
/-! DEFINITION. Observability: trace records and triggers, markers, sampled counters and the inspection snapshot (R424
to R438). -/

namespace Sys2Proof.Machine

/-- Trace record types (R429). -/
abbrev TR_BEGIN : Nat := 0
abbrev TR_END : Nat := 1
abbrev TR_POINT : Nat := 2
abbrev TR_INSTR : Nat := 3
abbrev TR_GATE : Nat := 4
abbrev TR_STEP : Nat := 5
abbrev TR_TRIGGER : Nat := 6
abbrev TR_LOST : Nat := 7
abbrev TR_EVENT : Nat := 8
abbrev TR_RESTART : Nat := 9

/-- Trigger bits (R431). -/
abbrev TG_HOST : Nat := 0
abbrev TG_GATE_FAIL : Nat := 1
abbrev TG_HANG : Nat := 2
abbrev TG_POISON : Nat := 3
abbrev TG_MARK : Nat := 4
abbrev TG_EVENT : Nat := 5

/-- Observability counters (R438). -/
abbrev OB_TRACE_LOST : Nat := 0
abbrev OB_IGNORED : Nat := 1
abbrev OB_SAMPLES_LOST : Nat := 2
abbrev OB_SNAPSHOTS : Nat := 0
abbrev OB_SKIPPED : Nat := 1

/-- Unit code of a stream's unit, its stream code and the cluster slot that keeps its records (R81, R429). -/
def traceSource : SRef → Nat × Nat × Nat
  | .f k => (k, 0, k / 32)
  | .b k => (k, 1, k / 32)
  | .u n => (0x840 + n, 2, 16 * (n / 3))

/-- Records a cluster slot holds (R432). -/
def traceCap (t : TraceSt) : Nat := 131072 + t.spillMib * 512

/-- Room for one more record: the oldest goes where the buffer overwrites. -/
def TraceBuf.push (b : TraceBuf) (cap r : Nat) : TraceBuf :=
  { b with recs := (if b.recs.length ≥ cap then b.recs.drop 1 else b.recs) ++ [r], written := b.written + 1 }

namespace State

def traceBuf (s : State) (slot : Nat) : TraceBuf := aget s.trace.bufs slot {}
def setTraceBuf (s : State) (slot : Nat) (b : TraceBuf) : State := { s with trace := { s.trace with bufs := aset s.trace.bufs slot b } }

/-- A trace record's 256 bits (R429). -/
def traceRec (s : State) (type source stream depth : Nat) (nestErr : Bool) (step id payload : Nat) : Nat :=
  s.aclk % 2 ^ 64 * 2 ^ 192 + type % 16 * 2 ^ 188 + source % 4096 * 2 ^ 176 + stream % 4 * 2 ^ 174 + depth % 32 * 2 ^ 169
    + b2n nestErr * 2 ^ 168 + min s.job.attempt 255 * 2 ^ 160 + step % 2 ^ 32 * 2 ^ 128 + id % 2 ^ 32 * 2 ^ 96 + payload % 2 ^ 96

/-- A record stored in the buffer and, with a spill ring, in its slot's part of the ring (R432). -/
def tracePut (s : State) (slot r : Nat) : State :=
  let b := s.traceBuf slot
  let t := s.trace
  let s1 := if t.spillMib = 0 then s
    else s.writeNat (t.spillAddr + slot * t.spillMib * 16384 + 32 * (b.written % (t.spillMib * 512))) 32 r
  s1.setTraceBuf slot (b.push (traceCap t) r)

/-- One record arrives at a slot that stores it: a LOST record goes first where records have been lost (R433). -/
def traceStore (s : State) (slot r : Nat) : State :=
  let b := s.traceBuf slot
  if b.lost = 0 then s.tracePut slot r
  else
    let s1 := s.tracePut slot (s.traceRec TR_LOST 0xFFF 3 0 false s.job.decided b.lost 0)
    (s1.setTraceBuf slot { s1.traceBuf slot with lost := 0 }).tracePut slot r

def traceLose (s : State) (slot : Nat) : State :=
  let b := s.traceBuf slot
  (s.setTraceBuf slot { b with lost := hold32 (b.lost + 1) }).bump (.obsSlot slot) OB_TRACE_LOST

/-- One record arrives at a slot (R432, R433). -/
def trace1 (s : State) (slot r : Nat) : State :=
  let b := s.traceBuf slot
  match b.state with
  | .disarmed => s
  | .frozen | .full => s.traceLose slot
  | .armed =>
    if s.trace.mode == 0 then
      if b.recs.length ≥ traceCap s.trace then (s.setTraceBuf slot { b with state := .full }).traceLose slot
      else
        let s1 := s.traceStore slot r
        let b1 := s1.traceBuf slot
        if b1.recs.length ≥ traceCap s.trace then s1.setTraceBuf slot { b1 with state := .full } else s1
    else s.traceStore slot r
  | .post 0 => s.traceLose slot
  | .post (n + 1) =>
    let s1 := s.traceStore slot r
    s1.setTraceBuf slot { s1.traceBuf slot with state := .post n }

/-- Records that follow a trigger before the buffer freezes (R432). -/
def tracePost (t : TraceSt) : Nat := traceCap t - 1 - traceCap t * t.pre / 16

/-- A trigger at one slot (R432). -/
def trigger1 (s : State) (bit slot : Nat) : State :=
  let b := s.traceBuf slot
  match b.state with
  | .disarmed => s
  | .post _ | .frozen => s.bump (.obsSlot slot) OB_IGNORED
  | .full => s.traceLose slot
  | .armed =>
    let s1 := s.trace1 slot (s.traceRec TR_TRIGGER 0xFFF 3 0 false s.job.decided bit 0)
    let b1 := s1.traceBuf slot
    if s.trace.mode == 2 then
      s1.setTraceBuf slot { b1 with trigAt := some (b1.written - 1), state := .post (tracePost s.trace) }
    else s1.setTraceBuf slot { b1 with trigAt := some (b1.written - 1) }

/-- A trigger fires on every cluster slot at once, where its bit is enabled (R431, R432). -/
def trigger (s : State) (bit : Nat) : State :=
  if bitOf s.trace.trigMask bit then (List.range 64).foldl (fun t k => t.trigger1 bit k) s else s

/-- A record of the device, kept by cluster slot 0 (R429). -/
def traceDevice (s : State) (type step id payload : Nat) : State :=
  s.trace1 0 (s.traceRec type 0xFFF 3 0 false step id payload)

/-! ### Markers (R144, R430) -/

/-- MARK at the head: with fence it waits for every earlier instruction. -/
def doMark (s : State) (r : SRef) (w : IWord) : State :=
  let t := s.stream r
  if bitOf w 93 && !t.quiet then s.setStream r { t with phase := .waitFence }
  else
    let id := fld w 127 96
    let kind := fld w 95 94
    let src := traceSource r
    let over' := t.marks.length ≥ 16
    let x : Nat × Bool × List Nat :=
      match kind with
      | 0 => (TR_BEGIN, over', if over' then t.marks else id :: t.marks)
      | 1 => (TR_END, t.marks.isEmpty, t.marks.drop 1)
      | _ => (TR_POINT, false, t.marks)
    let s1 := s.trace1 src.2.2 (s.traceRec x.1 src.1 src.2.1 x.2.2.length x.2.1 t.step id 0)
    let s2 := if x.1 == TR_POINT && bitOf id 31 then s1.trigger TG_MARK else s1
    s2.executed r fun t => { t with marks := x.2.2 }

/-- The INSTR record of a completed instruction at level 1 (R429). -/
def traceInstr (s : State) (r : SRef) (x : InFlight) : State :=
  if s.trace.level && s.inDebug then
    let src := traceSource r
    let t := s.stream r
    let id := x.word % 256 * 2 ^ 24 + fld x.word 19 16 * 2 ^ 16
    s.trace1 src.2.2 (s.traceRec TR_INSTR src.1 src.2.1 t.marks.length false t.step id (x.pc * 2 ^ 80 + s.aclk % 2 ^ 64 * 2 ^ 16))
  else s

/-! ### Sampled counters (R426 to R428) -/

def arrOfCode : Nat → Arr | 0 => .f | 1 => .b0 | 2 => .b1 | _ => .t

/-- The counter of a core slot that an event code selects (R426). BUSY, WAIT and the cluster events count cycles and bus
units, which the model does not count. -/
def coreEvent (k code : Nat) : Option (Bank × Nat) :=
  if 0x1000 ≤ code && code ≤ 0x103F then
    let n := code % 16
    if n ≤ 7 then some (.activity k (arrOfCode (code / 16 % 16)), n)
    else if n ≤ 11 && code / 16 % 16 == 3 then some (.table k, n - 8) else none
  else if 0x1100 ≤ code && code ≤ 0x115E && code % 16 ≤ 14 then
    match code / 16 % 16 with
    | 4 => some (.atrest k, code % 16)
    | 5 => some (.wire k, code % 16)
    | b => some (.drain k (arrOfCode b), code % 16)
  else if 0x1200 ≤ code && code ≤ 0x1203 then some (.attn k, code - 0x1200)
  else if 0x1204 ≤ code && code ≤ 0x1209 then some (.routing k, code - 0x1204)
  else if 0x1306 ≤ code && code ≤ 0x130E then some (.sample k, code - 0x1306)
  else none

/-- A code of the table that a core selector may hold. -/
def coreCodeOk (code : Nat) : Bool :=
  code == 0 || (0x1000 ≤ code && code ≤ 0x103F) || (0x1100 ≤ code && code ≤ 0x115E) || (0x1200 ≤ code && code ≤ 0x1209) || (0x1300 ≤ code && code ≤ 0x130E)

def clusterCodeOk (code : Nat) : Bool :=
  coreCodeOk code || (0x2000 ≤ code && code ≤ 0x2003) || (0x8000 ≤ code && coreCodeOk (code - 0x8000))

def coreSample (s : State) (k code : Nat) : Nat :=
  match coreEvent k code with | some b => aget s.trace.counts b 0 | none => 0

/-- A cluster selector's count: the sum over the bound core slots for CSUM and for a core code. -/
def clusterSample (s : State) (slot code : Nat) : Nat :=
  let c := if code ≥ 0x8000 then code - 0x8000 else code
  ((((List.range 32).map (32 * slot + ·)).filter s.coreServed).map fun k => s.coreSample k c).sum

/-- The innermost open marker of a stream. -/
def innerMark (s : State) (r : SRef) : Nat := (s.stream r).marks.headD 0

/-- A cluster slot's sample record (R427). -/
def sampleRecord (s : State) (slot : Nat) : List Byte :=
  let cores := (List.range 32).map (32 * slot + ·)
  let sel (i : Nat) : Nat := s.trace.selectors.getD i 0
  let cl := (List.range 256).map fun i => s.clusterSample slot (sel (32 + i))
  let co := if s.trace.coreEn then cores.flatMap fun k => (List.range 32).map fun i => s.coreSample k (sel i) else []
  let sat := s.trace.countsLost || (cl ++ co).any (· > 0xFFFFFFFF)
  let lost := min (s.counter (.obsSlot slot) OB_SAMPLES_LOST) 65535
  natLE 64 (s.aclk % 2 ^ 64 * 2 ^ 448 + s.trace.sampleSeq % 2 ^ 32 * 2 ^ 416 + slot * 2 ^ 410 + b2n s.trace.coreEn * 2 ^ 409 + lost * 2 ^ 393 + b2n sat * 2 ^ 392)
    ++ (cores.flatMap fun k => natLE 4 (s.innerMark (.f k)) ++ natLE 4 (s.innerMark (.b k)))
    ++ (cl ++ co).flatMap fun n => natLE 4 (hold32 n)

/-- Every cluster slot takes a sample, and its counters start again (R427). -/
def sampleAll (s : State) : State :=
  if !s.trace.sampling then s
  else
    let t := s.trace
    let z := if t.coreEn then 5440 else 1344
    let s1 := (List.range 64).foldl (fun (u : State) k =>
      if u.clusterServed k then u.writeData (t.ringAddr + (t.sampleSeq % t.ringRecords * 64 + k) * z) (s.sampleRecord k) else u) s
    { s1 with trace := { s1.trace with counts := [], sampleSeq := t.sampleSeq + 1, countsLost := false } }

/-! ### The inspection snapshot (R436, R437) -/

abbrev SNAP_BASE : Nat := 0x008FE8000000
abbrev SNAP_SIZE : Nat := 0x4000000

def Phase.snap : Phase → Nat
  | .inactive => 0 | .ready => 1 | .waitSync => 2 | .waitEngine => 3 | .waitFence => 3 | .gate => 4 | .ended => 5 | .stopped => 6

/-- The object and value a stream's head waits for. -/
def headWait (s : State) (r : SRef) : Option (Nat × Nat) :=
  let t := s.stream r
  let w := s.head r
  if t.phase == .waitSync && w.waitGE then
    some (resolveId w.waitPar w.waitId t.step (parityOf r t), w.waitVal + (if w.waitLoop then t.index 0 else 0))
  else none

/-- A stream head record. -/
def headRecord (s : State) (r : SRef) : List Byte :=
  let t := s.stream r
  let wt := (s.headWait r).getD (0, 0)
  natLE 64 (s.head r % 2 ^ 128 * 2 ^ 384 + t.pc % 65536 * 2 ^ 368 + Phase.snap t.phase * 2 ^ 365 + wt.1 % 65536 * 2 ^ 349 + wt.2 % 2 ^ 32 * 2 ^ 317
    + (s.aclk - t.since) % 2 ^ 48 * 2 ^ 269
    + (t.index 3 * 2 ^ 48 + t.index 2 * 2 ^ 32 + t.index 1 * 2 ^ 16 + t.index 0) % 2 ^ 64 * 2 ^ 205
    + s.innerMark r % 2 ^ 32 * 2 ^ 173 + t.marks.length % 32 * 2 ^ 168 + t.step % 2 ^ 64 * 2 ^ 104 + min s.job.attempt 255 * 2 ^ 96)

/-- Streams that have started. -/
def knownStreams (s : State) : List SRef := s.streams.map (·.1)

/-- A camber unit's progress record. -/
def camberRecord (s : State) (n : Nat) : List Byte :=
  let t := s.stream (.u n)
  let open' := t.inflight.find? fun x => !x.completed && (x.word % 256 == OP_UP1 || x.word % 256 == OP_UP2)
  let ld := match open' with | some x => IWord.didx x.word | none => 0
  let pass := match open' with | some x => if x.word % 256 == OP_UP1 then 1 else 2 | none => 0
  let hd := s.head (.u n)
  let hold := hd.opcode == OP_UP2 && (match s.falsework.run with | some g => g.unread.contains (n, IWord.didx hd) | none => false)
  natLE 64 (ld % 65536 * 2 ^ 496 + pass * 2 ^ 494 + b2n t.ready * 2 ^ 461 + b2n hold * 2 ^ 460)

/-- A port's record for one virtual channel. -/
def portRecord (s : State) (p v : Nat) : List Byte :=
  let q := s.port p
  let occ := (s.net.held.filter fun h => h.src == some (p, v)).length
  let ack := match q.retry with | f :: _ => (f.seq + 4095) % 4096 | [] => (q.txSeq + 4095) % 4096
  natLE 64 (q.credits.getD v 0 % 65536 * 2 ^ 496 + occ % 65536 * 2 ^ 480 + q.txSeq % 4096 * 2 ^ 468 + ack * 2 ^ 456 + q.retry.length % 2048 * 2 ^ 445
    + q.state.code * 2 ^ 442 + q.width % 8 * 2 ^ 439)

/-- A copy in flight: its descriptor with L0 and L1 applied, and its progress. -/
def copyRecord (s : State) (r : SRef) (x : InFlight) : List Byte :=
  let v := s.descNat r (IWord.didx x.word)
  let c := CopyDesc.ofNat v
  let l (i : Nat) : Int := ((x.idxs.getD i 0 : Nat) : Int)
  let src := ((c.src : Int) + c.src0 * l 0 + c.src1 * l 1).toNat
  let dst := ((c.dst : Int) + c.dst0 * l 0 + c.dst1 * l 1).toNat
  let st := match r with | .f _ => 0 | .b _ => 1 | .u _ => 2
  natLE 64 (setFld (setFld v 511 448 src) 447 384 dst)
    ++ natLE 64 ((if x.done then 0 else 3) * 2 ^ 477 + st * 2 ^ 475 + (match x.sig with | some g => g.id % 65536 | none => 0) * 2 ^ 459)

/-- Copies a core slot has in flight, F-stream first. -/
def coreCopies (s : State) (k : Nat) : List (SRef × InFlight) :=
  [SRef.f k, SRef.b k].flatMap fun r =>
    ((s.stream r).inflight.filter fun x => !x.completed && (x.word % 256 == OP_MCOPY || x.word % 256 == OP_MFILL || x.word % 256 == OP_MBANKREAD)).map fun x => (r, x)

/-- Everything that waits on a sync object: object, kind, index, value. -/
def waiters (s : State) : List (Nat × Nat × Nat × Nat) :=
  let st := s.knownStreams.filterMap fun r =>
    (s.headWait r).map fun w => (w.1, (match r with | .f _ => 0 | .b _ => 1 | .u _ => 2), coreOf r, w.2)
  let tr := (List.range 64).filterMap fun c =>
    let c' := s.trestleCtx c
    let k := s.trestleOf c
    let e := s.trestleJob c k.pos
    if c'.active && k.running && !s.entryReady e k.step then some (resolveId e.waitPar e.waitId k.step 0, 3, c, e.waitVal) else none
  let co :=
    let c := s.collCtx
    if c.active && s.coll.started && s.coll.pos < c.count then
      let e := ListEntry.ofNat (s.nat (c.list + 16 * s.coll.pos) 16)
      if s.entryReady e s.coll.step then [] else [(resolveId e.waitPar e.waitId s.coll.step 0, 4, 0, e.waitVal)]
    else []
  st ++ tr ++ co ++ s.host.waits.zipIdx.map fun x => (x.1.id, 5, x.2, x.1.value)

/-- Ascending object, then kind, then index. -/
def waitKey (x : Nat × Nat × Nat × Nat) : Nat := (x.1 * 16 + x.2.1) * 4096 + x.2.2.1

def sortWaits : List (Nat × Nat × Nat × Nat) → List (Nat × Nat × Nat × Nat)
  | [] => []
  | x :: xs => let r := sortWaits xs; (r.takeWhile fun y => waitKey y < waitKey x) ++ x :: r.dropWhile fun y => waitKey y < waitKey x

/-- A range of addresses emptied. -/
def clearRange (s : State) (a n : Nat) : State :=
  let p (k : Nat) : Bool := let x := addrOf s.localGib k; a ≤ x && x < a + n
  { s with mem := s.mem.filter fun c => !p c.1, ecc := s.ecc.filter fun c => !p c.1 }

/-- The snapshot's header. -/
def snapHeader (s : State) (hang : Option SRef) (held : Bool) : List Byte :=
  let src := match hang with | some r => (traceSource r).1 | none => 0xFFF
  let str := match hang with | some r => (traceSource r).2.1 | none => 0
  natLE 64 (s.aclk % 2 ^ 64 * 2 ^ 448 + s.trace.snapSeq % 2 ^ 32 * 2 ^ 416 + b2n hang.isSome * 2 ^ 414 + s.pierId * 2 ^ 402 + s.job.decided % 2 ^ 64 * 2 ^ 338
    + min s.job.attempt 255 * 2 ^ 330 + 2 ^ 329 + b2n held * 2 ^ 328 + src * 2 ^ 316 + str * 2 ^ 314 + s.aclk % 2 ^ 64 * 2 ^ 250)

/-- The snapshot taken: header, heads, camber units, lists, sync objects, waits, ports and copies (R436, R437). -/
def snapshot (s : State) (hang : Option SRef) (held : Bool) : State :=
  let at' (t : State) (off : Nat) (bs : List Byte) : State := t.writeData (SNAP_BASE + off) bs
  let s0 := s.clearRange SNAP_BASE SNAP_SIZE
  let s1 := at' s0 0 (s.snapHeader hang held)
  let s2 := s.knownStreams.foldl (fun t r =>
    match r with
    | .f k => at' t (0x1000 + 128 * k) (s.headRecord r)
    | .b k => at' t (0x1000 + 128 * k + 64) (s.headRecord r)
    | .u n => at' t (0x41000 + 128 * n) (s.headRecord r ++ s.camberRecord n)) s1
  let s3 := (List.range 64).foldl (fun t c =>
    if (s.trestleCtx c).active then at' t (0x42000 + 32 * c) (s.data (TRESTLE_JOBS + 0x4000 * c + 16 * (s.trestleOf c).pos) 16) else t) s2
  let s4 := if s.collCtx.active then at' s3 0x42800 (s.data (s.collCtx.list + 16 * s.coll.pos) 16) else s3
  let s5 := (s.mem.filter fun c => SYNC_BASE ≤ c.1 && c.1 < SYNC_BASE + 0x100000).foldl (fun t c => at' t (0x43000 + (c.1 - SYNC_BASE)) [c.2]) s4
  let ws := sortWaits s.waiters
  let s6 := at' s5 0x143000 ((ws.take 8191).flatMap (fun x => natLE 8 (x.1 * 2 ^ 48 + x.2.1 * 2 ^ 44 + x.2.2.1 * 2 ^ 32 + x.2.2.2)) ++ List.replicate 8 0xFF#8)
  let s7 := (List.range 64).foldl (fun t i => at' t (0x153000 + 64 * i) (s.portRecord (i / 4) (i % 4))) s6
  let s8 := (s.knownStreams.map coreOf).eraseDups.foldl (fun t k =>
    (s.coreCopies k).zipIdx.foldl (fun t x => at' t (0x154000 + 512 * k + 128 * x.2) (s.copyRecord x.1.1 x.1.2)) t) s7
  { s8 with trace := { s8.trace with snapSeq := s.trace.snapSeq + 1, snapHeld := held } }.bump .obsPier OB_SNAPSHOTS

/-- The snapshot on hang detection; one that is held stands (R437). -/
def hangSnapshot (s : State) (r : SRef) : State :=
  if s.trace.snapHeld then s.bump .obsPier OB_SKIPPED else s.snapshot (some r) true

end State

end Sys2Proof.Machine
end

