-- ==== Sys2Proof/Machine/HostBase.lean ====
section
/-! DEFINITION. Status codes and opcodes, the completion log, completion entries, events and notifications (R8, R9,
R344, R353 to R357, R422). -/

namespace Sys2Proof.Machine

/-- Status codes (R8). -/
abbrev ST_DONE : Nat := 0x0000
abbrev ST_CLAMPED : Nat := 0x0001
abbrev ST_REPLAYED : Nat := 0x0002
abbrev ST_DEGRADED : Nat := 0x0003
abbrev ST_ABORTED : Nat := 0x0004
abbrev ST_ABORT_LATE : Nat := 0x0005
abbrev ST_DEADLINE : Nat := 0x0010
abbrev ST_RESOURCE : Nat := 0x0011
abbrev ST_AUTH : Nat := 0x0012
abbrev ST_STATE : Nat := 0x0013
abbrev ST_DIVERGENCE : Nat := 0x0020
abbrev ST_UNRECOVERABLE : Nat := 0x0021
abbrev ST_PENDING : Nat := 0x00FF

/-- Opcodes of commands (R344). -/
abbrev OC_HELLO : Nat := 0x0001
abbrev OC_OPEN : Nat := 0x0002
abbrev OC_CLOSE : Nat := 0x0003
abbrev OC_KEEPALIVE : Nat := 0x0004
abbrev OC_NET_CONFIG : Nat := 0x0005
abbrev OC_ROLL_CALL : Nat := 0x0006
abbrev OC_REGION_OPEN : Nat := 0x0010
abbrev OC_REGION_CLOSE : Nat := 0x0011
abbrev OC_RING_SETUP : Nat := 0x0012
abbrev OC_QP_CONNECT : Nat := 0x0013
abbrev OC_FW_LOAD : Nat := 0x0020
abbrev OC_FW_REPLACE : Nat := 0x0021
abbrev OC_WEARLOG : Nat := 0x0022
abbrev OC_PLAN_LOAD : Nat := 0x0030
abbrev OC_PLAN_UPDATE : Nat := 0x0031
abbrev OC_PLAN_UNLOAD : Nat := 0x0032
abbrev OC_DESC_WRITE : Nat := 0x0033
abbrev OC_JOB_START : Nat := 0x0034
abbrev OC_JOB_ASSIGN : Nat := 0x0035
abbrev OC_SPAN_CREATE : Nat := 0x0040
abbrev OC_SPAN_DELETE : Nat := 0x0041
abbrev OC_SLOT_WRITE : Nat := 0x0042
abbrev OC_OPERATOR : Nat := 0x0050
abbrev OC_SYNC_SIGNAL : Nat := 0x0060
abbrev OC_SYNC_WAIT : Nat := 0x0061
abbrev OC_FLOORPLAN_READ : Nat := 0x0070
abbrev OC_COUNTER_READ : Nat := 0x0071
abbrev OC_CLAMP_READ : Nat := 0x0072
abbrev OC_STATUS_QUERY : Nat := 0x0073
abbrev OC_POISON_READ : Nat := 0x0074
abbrev OC_ABORT : Nat := 0x0080
abbrev OC_DRAIN_DETACH : Nat := 0x0090
abbrev OC_RETIRE_UNIT : Nat := 0x0091
abbrev OC_SNAPSHOT : Nat := 0x00A0
abbrev OC_TRACE_CTL : Nat := 0x00A1
abbrev OC_DEBUG_MODE : Nat := 0x00A2
abbrev OC_EVENT : Nat := 0x00F0

/-- The command identity of an EVENT (R355). -/
abbrev EVENT_ID : Nat := 0xFFFFFFFF

/-- Fault event codes (R422). -/
abbrev EV_REPLAYED : Nat := 1
abbrev EV_RETIRED : Nat := 2
abbrev EV_RECOVERY_MODE : Nat := 3
abbrev EV_PIER_LOST : Nat := 4
abbrev EV_RECOVERED : Nat := 5
abbrev EV_GENERATION : Nat := 6
abbrev EV_GEN_FAILED : Nat := 7
abbrev EV_GEN_DISCARDED : Nat := 8
abbrev EV_DIVERGENCE : Nat := 9
abbrev EV_AGEING : Nat := 10
abbrev EV_UNRECOVERABLE : Nat := 11

/-- The status that stands where a DONE-family status meets the other DONE-family conditions (R9). -/
def foldStatus (st : Nat) (clamped replayed degraded : Bool) : Nat :=
  if st ≤ ST_DEGRADED then max (max st (b2n clamped)) (max (2 * b2n replayed) (3 * b2n degraded)) else st

/-- A header of the command plane, its tag zero (R341). -/
def headerNat (flags opcode status session seq cmdId plen pier : Nat) : Nat :=
  1 * 2 ^ 376 + flags % 256 * 2 ^ 368 + opcode % 65536 * 2 ^ 352 + status % 65536 * 2 ^ 336 + session % 2 ^ 32 * 2 ^ 304
    + seq % 2 ^ 64 * 2 ^ 240 + cmdId % 2 ^ 32 * 2 ^ 208 + plen % 65536 * 2 ^ 192 + pier % 4096 * 2 ^ 180

/-- A clamp entry's bytes (R348). -/
def ClampRec.bytes (c : ClampRec) (pier : Nat) : List Byte :=
  natLE 32 (c.kind % 256 * 2 ^ 248 + c.clamp % 16 * 2 ^ 244 + c.widthM1 % 64 * 2 ^ 238 + pier % 4096 * 2 ^ 226 + c.bitOff % 65536 * 2 ^ 210
    + c.ctx % 2 ^ 18 * 2 ^ 192 + c.index % 2 ^ 32 * 2 ^ 160 + c.supplied % 2 ^ 64 * 2 ^ 64 + c.used % 2 ^ 64)

/-- A fault record (R422). -/
structure FaultRec where
  event : Nat
  step : Nat := 0
  attempt : Nat := 0
  faults : Nat := 0
  kind : Nat := 0
  index : Nat := 0
  reason : Nat := 0
  pier : Nat := 0
  value : Nat := 0
deriving DecidableEq, Repr

def FaultRec.toNat (f : FaultRec) : Nat :=
  f.event % 256 * 2 ^ 216 + f.step % 2 ^ 64 * 2 ^ 152 + min f.attempt 255 * 2 ^ 144 + f.faults % 256 * 2 ^ 136 + f.kind % 256 * 2 ^ 128
    + f.index % 4096 * 2 ^ 116 + f.reason % 256 * 2 ^ 108 + f.pier % 4096 * 2 ^ 96 + f.value % 2 ^ 64 * 2 ^ 32

namespace State

/-! ### Tags and packets -/

/-- First sixteen bytes of the HMAC under the session key; zero with no session (R342, R355). -/
def tagOf (s : State) (bs : List Byte) : List Byte :=
  match s.host.session with | some x => (hmac x.key bs).take 16 | none => List.replicate 16 0#8

/-- A packet of the device: header with its tag over the whole packet, then its blocks (R341, R347). -/
def packetBytes (s : State) (tagged : Bool) (hdr : Nat) (body : List Byte) : List Byte :=
  let h := natLE 48 hdr
  let t := if tagged then s.tagOf (h ++ body) else List.replicate 16 0#8
  t ++ h.drop 16 ++ body

def send (s : State) (m : HostMsg) : State := { s with host := { s.host with out := s.host.out ++ [m] } }

/-! ### The completion log (R355, R357) -/

def logOf (s : State) (cmd : Nat) : Option LogRec := s.host.log.reverse.find? fun r => r.cmdId == cmd
def pendingCount (s : State) : Nat := (s.host.log.filter fun r => r.status.isNone).length

/-- The log without its oldest completed record, where there is one. -/
def dropOldest : List LogRec → List LogRec
  | [] => []
  | r :: rs => if r.status.isSome then rs else r :: dropOldest rs

/-- A record entered in the log of 4,096 (R357). -/
def logAdd (s : State) (r : LogRec) : State :=
  { s with host := { s.host with log := (if s.host.log.length ≥ 4096 then dropOldest s.host.log else s.host.log) ++ [r] } }

def logMap (s : State) (cmd : Nat) (f : LogRec → LogRec) : State :=
  { s with host := { s.host with log := s.host.log.map fun r => if r.cmdId == cmd then f r else r } }

/-! ### Completion entries (R353, R355) -/

/-- A completion entry: its tag, and bits [511:128] (R355). -/
def entryBytes (s : State) (r : LogRec) (phase : Bool) : List Byte :=
  let v := r.cmdId % 2 ^ 32 * 2 ^ 480 + r.seq % 2 ^ 64 * 2 ^ 416 + r.status.getD ST_PENDING % 65536 * 2 ^ 400 + r.opcode % 65536 * 2 ^ 384
    + min r.clamps 65535 * 2 ^ 368 + b2n phase * 2 ^ 367 + b2n r.poison * 2 ^ 366 + b2n r.risk * 2 ^ 365 + r.result % 2 ^ 224 * 2 ^ 128
  let b := (natLE 64 v).drop 16
  s.tagOf b ++ b

abbrev CQ_BASE : Nat := 0x080007110000
abbrev SQ_BASE : Nat := 0x080007010000

def sqTail (s : State) : Nat := s.nat RING_AREA 4
def sqHead (s : State) : Nat := s.nat (RING_AREA + 0x40) 4
def cqTail (s : State) : Nat := s.nat (RING_AREA + 0x80) 4
def cqHead (s : State) : Nat := s.nat (RING_AREA + 0xC0) 4

/-- Free entries of the completion ring. -/
def cqFree (s : State) : Nat :=
  match s.host.ring with
  | some (_, c) => 2 ^ c - (s.cqTail + 2 ^ 32 - s.cqHead) % 2 ^ 32
  | none => 0

/-- A completion entry written at cq_tail (R353, R355). -/
def cqPut (s : State) (r : LogRec) : State :=
  match s.host.ring with
  | none => s
  | some (_, c) =>
    let t := s.cqTail
    let slot := t % 2 ^ c
    (s.writeData (CQ_BASE + 64 * slot) (s.entryBytes r (t / 2 ^ c % 2 == 0))).writeNat (RING_AREA + 0x80) 4 ((t + 1) % 2 ^ 32)

/-- Poison log entries made (R351, control block). -/
def poisonCount (s : State) : Nat := s.nat (RING_AREA + 0x140) 8

/-- What a record carries as it completes: the growth of the poison log, the risk, and clamps of RDMA writes
(R350, R355). -/
def stamped (s : State) (r : LogRec) : LogRec :=
  { r with poison := decide (s.poisonCount ≠ s.host.poisonSeen), risk := s.host.risk, clamps := hold32 (r.clamps + s.host.rdmaClamps) }

/-- A notification packet with a completion entry as its result block (R356). -/
def notify (s : State) (r : LogRec) (port : Nat) : State :=
  match s.host.session with
  | none => s
  | some x =>
    let e := s.entryBytes r (match s.host.ring with | some (_, c) => s.cqTail / 2 ^ c % 2 == 0 | none => false)
    let h := headerNat 2 r.opcode (r.status.getD ST_PENDING) x.id r.seq r.cmdId e.length s.pierId
    s.send (.packet port x.notifyIp x.notifyPort (s.packetBytes true h e))

/-- A completed record taken into the log's place for it, the ring and a notification. -/
def publish (s : State) (r : LogRec) : State :=
  let r1 := s.stamped r
  let s1 := { s with host := { s.host with
    log := s.host.log.map fun x => if x.cmdId == r.cmdId && x.status.isNone && r.cmdId != EVENT_ID then r1 else x
    poisonSeen := s.poisonCount, rdmaClamps := 0 } }
  let s2 := if r.ring then s1.cqPut r1 else s1
  if r.notify then s2.notify r1 r.port else s2

/-- Resources of the pier are reduced: a port runs narrowed, or a processor of a pair is retired (R280, R377). -/
def degradedNow (s : State) : Bool :=
  (allPorts.any fun p => s.portUp p && (s.port p).width < 4) || s.fp.units.any fun u => u.1.1 == UK_ABUT && u.2.state == 3

/-- A pending command completes with a status and a result (R9, R357). -/
def finishOne (s : State) (cmd status : Nat) (result : Nat := 0) : State :=
  match s.host.log.find? fun r => r.cmdId == cmd && r.status.isNone with
  | none => s
  | some r => s.publish { r with status := some (foldStatus status (r.clamps != 0) r.replayed (r.degraded || s.degradedNow)), result := result }

/-- A pending command completes, and then the aborts that named it: DONE where it was aborted, ABORT_LATE where it
completed first (R364). `f` bounds aborts of aborts. -/
def finishN : Nat → State → Nat → Nat → Nat → State
  | 0, s, cmd, st, res => s.finishOne cmd st res
  | f + 1, s, cmd, st, res =>
    let s1 := s.finishOne cmd st res
    let mine := (s1.host.aborts.filter fun a => a.2 == cmd).map (·.1)
    let s2 := { s1 with host := { s1.host with aborts := s1.host.aborts.filter fun a => a.2 != cmd } }
    mine.foldl (fun t a => finishN f t a (if st == ST_ABORTED then ST_DONE else ST_ABORT_LATE) 0) s2

def finish (s : State) (cmd status : Nat) (result : Nat := 0) : State := finishN 4 s cmd status result

/-! ### Events (R356, R422) -/

/-- An EVENT entry: logged, posted to the completion ring where it has room beyond what R353 holds back, and notified.
One without room is counted instead. -/
def event (s : State) (status result : Nat) : State :=
  let r : LogRec := { cmdId := EVENT_ID, seq := 0, opcode := OC_EVENT, status := some status, result := result, ring := true, notify := true }
  if s.host.ring.isSome && s.cqFree ≤ s.pendingCount then
    s.writeNat (RING_AREA + 0x100) 8 (min (s.nat (RING_AREA + 0x100) 8 + 1) (2 ^ 64 - 1))
  else (s.logAdd (s.stamped r)).publish r

/-- Status of each fault event (R422). -/
def eventStatus : Nat → Nat
  | 1 => ST_REPLAYED | 2 => ST_DEGRADED | 3 => ST_DEGRADED | 4 => ST_DEGRADED | 5 => ST_REPLAYED | 6 => ST_DONE
  | 7 => ST_DEGRADED | 8 => ST_REPLAYED | 9 => ST_DIVERGENCE | 11 => ST_UNRECOVERABLE | _ => ST_DONE

/-- A condition of the job that JOB_START's status folds (R9, R422). -/
def jobMet (s : State) (status : Nat) : State :=
  { s with job := { s.job with replayed := s.job.replayed || status == ST_REPLAYED, degraded := s.job.degraded || status == ST_DEGRADED } }

/-- A fault event of the table posted (R422). -/
def faultEvent (s : State) (f : FaultRec) : State :=
  let st := eventStatus f.event
  let s1 := (if s.job.running then s.jobMet st else s).traceDevice TR_EVENT f.step f.event 0
  (s1.trigger TG_EVENT).event st f.toNat

/-- The record of an event that concerns this pier at the step in flight. -/
def faultRec (s : State) (code : Nat) : FaultRec := { event := code, step := s.job.decided, attempt := s.job.attempt, pier := s.pierId }

/-- A unit retired: its event and its wear log reason (R16, R422). -/
def retiredEvent (s : State) (kind i reason : Nat) : State := s.faultEvent { s.faultRec EV_RETIRED with kind := kind, index := i, reason := reason }

end State

end Sys2Proof.Machine
end

