-- ==== Sys2Proof/Machine/Epoch.lean ====
section
/-! DEFINITION. Link maps, the names the root gives, route tables and the fabric epoch change (R284, R289 to R292). -/

namespace Sys2Proof.Machine

/-- ID of the root pier: coordinates (0, 0, 0), or the first place of a chain (R289). -/
abbrev ROOT_PIER : Nat := 0

/-- A list without one occurrence of each of `ps`. -/
def eraseEach (l ps : List Nat) : List Nat := ps.foldl List.erase l

/-- ID of torus coordinates (R289): in CHAIN y and z are 0. -/
def torusId (c : Nat × Nat × Nat) : Nat := c.1 + 8 * c.2.1 + 128 * c.2.2

/-! ### Naming (R289, R290, R292) -/

def mapSerial (ms : List PierMap) (serial : Nat) : Option PierMap := ms.find? fun m => m.serial == serial

/-- The anchor of a spare by serial, and the anchor's port: the lowest-ID torus pier with an UP express port to it. -/
def anchorBySerial (ms : List PierMap) (serial : Nat) : Option (Nat × Nat) :=
  let cs := ms.filterMap fun m =>
    if m.spare then none
    else (expressPorts.find? fun q => lmUp (m.links.getD q 0) && m.near.getD q 0 == serial).map fun q => (m.pier, q)
  cs.foldl (fun best c => match best with | some b => if c.1 < b.1 then some c else some b | none => some c) none

/-- The lowest ID from a base that no pier holds. -/
def freeId (ms : List PierMap) (base : Nat) : Nat := ((List.range 2048).map (base + ·)).find? (fun i => !ms.any (·.pier == i)) |>.getD 0xFFF

/-- A spare named: its ID, and its anchor's coordinates (R289). One without an anchor stays unnamed. -/
def nameSpare (base : Nat) (ms : List PierMap) (m : PierMap) : List PierMap :=
  match anchorBySerial ms m.serial with
  | none => ms
  | some a =>
    let k := (mapOf ms a.1).getD m
    let i := freeId ms base
    ms.map fun x => if x.serial == m.serial then { x with pier := if i < 2048 then i else 0xFFF, x := k.x, y := k.y, z := k.z } else x

/-- Unnamed spares in the order in which they take IDs: by anchor, then by the anchor's port. -/
def spareOrder (ms : List PierMap) : List PierMap :=
  let key (m : PierMap) : Nat := match anchorBySerial ms m.serial with | some a => a.1 * 16 + a.2 | none => 2 ^ 20
  (ms.filter fun m => m.spare && m.pier == 0xFFF).mergeSort fun a b => key a ≤ key b

/-- Link map entries with each neighbour's ID, found by its serial. -/
def fillLinks (ms : List PierMap) (m : PierMap) : PierMap :=
  { m with links := m.links.mapIdx fun p v =>
      match mapSerial ms (m.near.getD p 0) with
      | some n => if m.near.getD p 0 == 0 then v else setFld v 63 52 n.pier
      | none => v }

/-- The maps gathered, with every spare named and every link filled in. -/
def nameMaps (base : Nat) (ms : List PierMap) : List PierMap :=
  let named := (spareOrder ms).foldl (nameSpare base) ms
  named.map (fillLinks named)

namespace State

/-- Link map entry of a port (R290). -/
def linkEntry (s : State) (p : Nat) : Nat :=
  let q := s.port p
  let n : Nat × Nat := match q.nbr with | some i => (i.pier, i.port) | none => (0xFFF, 0)
  n.1 * 2 ^ 52 + n.2 * 2 ^ 48 + roleOf s.ext p * 2 ^ 45 + q.state.code * 2 ^ 42 + q.width * 2 ^ 39 + q.lanes * 2 ^ 35

/-- What this pier reports of itself: in a roll call under the ID it has been placed at. -/
def ownMap (s : State) : PierMap :=
  { serial := s.fuses.serial, pier := if s.net.roll.running then s.net.roll.id else s.pierId, x := s.net.x, y := s.net.y, z := s.net.z
    spare := s.net.spare, links := allPorts.map s.linkEntry, near := allPorts.map fun p => match (s.port p).nbr with | some i => i.serial | none => 0 }

/-- A link map entered among those gathered. -/
def putMap (ms : List PierMap) (m : PierMap) : List PierMap := ms.filter (fun x => x.serial != m.serial) ++ [m]

/-! ### The change itself (R284) -/

/-- Piers that take part in an epoch change. -/
def changeMembers (s : State) : List Nat :=
  (s.pierId :: (s.net.maps.map (·.pier)).filter (· != s.pierId)).filter fun p => !s.falsework.lost.contains p

/-- No flit of VC0 to VC2 remains in a retry buffer or in an input buffer (R284 step 2). -/
def linksEmpty (s : State) : Bool :=
  (allPorts.all fun p => !s.portUp p || (s.port p).retry.all fun f => f.vc == 3) && s.net.held.all fun h => h.src.isNone || h.flit.vc == 3

/-- Once this pier's buffers are empty it reports drained; once every member has, the quiet interval starts. -/
def settleChange (s : State) : State :=
  let s1 :=
    if s.net.change == .draining && s.linksEmpty && !s.net.drained.contains s.pierId then
      { s with net := { s.net with drained := s.net.drained ++ [s.pierId] } }.sendCtrlAll s.changeMembers (.drained s.pierId)
    else s
  if s1.net.change == .draining && s1.changeMembers.all s1.net.drained.contains then { s1 with net := { s1.net with change := .quiet } } else s1

/-- Step 1: injection stops (R284). -/
def beginChange (s : State) : State :=
  if s.net.change == .draining || s.net.change == .quiet then s
  else { s with net := { s.net with stopped := true, change := .draining } }.settleChange

/-- An epoch change is asked for: at once outside a job, at the next boundary in one. -/
def wantChange (s : State) : State :=
  if s.job.running then (if s.net.change == .idle then { s with net := { s.net with change := .wanted } } else s) else s.beginChange

/-- Maps on their way to every pier: kept for the next tables, passed on over every UP port but the one they came by
(R284, R290). Maps already kept go no further. -/
def floodMaps (s : State) (from' : Option Nat) (root mode ex ey ez : Nat) (ms : List PierMap) : State :=
  if ms == s.net.newMaps || (s.net.newMaps.isEmpty && ms == s.net.maps) then s
  else
    let s1 : State := { s with net := { s.net with chain := mode == 1, ex := ex, ey := ey, ez := ez, newMaps := ms } }
    ((allPorts.filter fun p => some p != from' && s1.portUp p).foldl (fun t p => t.sendCtrlPort p (.install root mode ex ey ez ms)) s1).wantChange

/-- The root names what it has gathered and sends it out. -/
def rootInstall (s : State) (ms : List PierMap) : State :=
  s.floodMaps none s.fuses.serial (b2n s.net.chain) s.net.ex s.net.ey s.net.ez (nameMaps s.net.roll.spareBase ms)

/-- The maps the next tables will come from, so far. -/
def nextMaps (s : State) : List PierMap := if s.net.newMaps.isEmpty then s.net.maps else s.net.newMaps

/-- This pier's link map goes to the root; the root takes it in itself, and installs what it holds. -/
def reportLinks (s : State) : State :=
  if s.net.roll.running || s.pierId == 0xFFF then s
  else if s.pierId == ROOT_PIER then s.rootInstall (putMap s.nextMaps s.ownMap)
  else s.sendCtrl ROOT_PIER (.linkMap s.ownMap)

/-- Tables computed from a set of link maps and put in force, with what they say of this pier and its neighbours
(R284, R290). A pier that is in none of them has left (R291). -/
def installMaps (s : State) (ms : List PierMap) : State :=
  let me := mapSerial ms s.fuses.serial
  let id := match me with | some m => m.pier | none => if s.net.maps.isEmpty then s.pierId else 0xFFF
  let place (n : NetSt) : NetSt := match me with | some m => { n with x := m.x, y := m.y, z := m.z, spare := m.spare } | none => n
  let known (p : PortSt) : PortSt := { p with nbr := p.nbr.map fun i => match mapSerial ms i.serial with | some m => { i with pier := m.pier } | none => i }
  { s with
    pierId := id
    net := place { s.net with
      maps := ms, newMaps := [], routes := routeTable s.ext ms id, live := allPorts.filter s.portUp, ports := s.net.ports.map fun p => (p.1, known p.2) } }

/-- Ports between this pier and a pier that leaves go to DISABLED (R291). -/
def disablePorts (s : State) (me : Nat) (gone : PierMap) : State :=
  allPorts.foldl (fun t p =>
    if gone.pier == me || ((t.port p).nbr.map (·.serial)) == some gone.serial then t.setPort p { t.port p with state := .disabled } else t) s

/-! ### The roll-call report (R290) -/

/-- Torus ports of the piers of a set of maps that are not UP at four lanes, by what they are: MISWIRED, narrowed, DOWN. -/
def portFaults (ms : List PierMap) : Nat × Nat × Nat :=
  let es := (ms.filter fun m => !m.spare).flatMap fun m => (m.links.filter fun v => fld v 47 45 < 6)
  let ofState (c : Nat) := (es.filter fun v => fld v 44 42 == c).length
  (ofState 3, (es.filter fun v => lmUp v && fld v 41 39 < 4).length, ofState 0 + ofState 1)

/-- Torus positions with no pier. -/
def emptyPlaces (s : State) (ms : List PierMap) : Nat := s.net.ex * s.net.ey * s.net.ez - (ms.filter fun m => !m.spare).length

/-- The report's 32-byte header: mode, extents, piers, empty positions and the port faults. -/
def rollHeader (s : State) (ms : List PierMap) : Nat :=
  let f := portFaults ms
  b2n s.net.chain + s.net.ex * 2 ^ 8 + s.net.ey * 2 ^ 16 + s.net.ez * 2 ^ 24 + ms.length * 2 ^ 32 + s.emptyPlaces ms * 2 ^ 64 + f.1 * 2 ^ 96 + f.2.1 * 2 ^ 128 + f.2.2 * 2 ^ 160

/-- A pier's 144-byte block. -/
def rollBlock (m : PierMap) : List Byte :=
  natLE 16 (m.serial * 2 ^ 64 + m.pier * 2 ^ 52 + m.x * 2 ^ 47 + m.y * 2 ^ 43 + m.z * 2 ^ 39 + b2n m.spare * 2 ^ 38) ++ m.links.flatMap (natLE 8)

def rollReport (s : State) : List Byte :=
  natLE 32 (s.rollHeader s.net.maps) ++ (s.net.maps.mergeSort fun a b => a.pier ≤ b.pier).flatMap rollBlock

/-- A roll call ends with the epoch change that installs its tables: on the root the command completes (R290). -/
def endRoll (s : State) : State :=
  if !s.net.roll.running then s
  else
    let f := portFaults s.net.maps
    let whole := s.emptyPlaces s.net.maps == 0 && f.1 == 0 && f.2.1 == 0 && f.2.2 == 0
    let s1 := if s.net.roll.isRoot then s.finish s.net.roll.cmdId (if whole then ST_DONE else ST_DEGRADED) (s.rollHeader s.net.maps) else s
    { s1 with net := { s1.net with roll := { root := s.net.roll.root, spareBase := s.net.roll.spareBase } } }

/-- Steps 4 and 5: tables installed, epoch inverted, injection resumed; the STEP objects of both parities are reset
after a failed gate (R148, R284). Ports of a pier that has left go to DISABLED, and its command completes (R291). -/
def endChange (s : State) : State :=
  if s.net.change != .quiet then s
  else
    let ms := if s.net.newMaps.isEmpty then putMap s.net.maps s.ownMap else s.net.newMaps
    let gone := s.net.maps.filter fun m => !ms.any (·.serial == m.serial)
    let s1 := gone.foldl (fun t m => t.disablePorts s.pierId m) (s.installMaps ms)
    let s2 : State := { s1 with net := { s1.net with epoch := !s.net.epoch, stopped := false, change := .idle
                                                     drained := eraseEach s.net.drained s.changeMembers } }
    let s3 := match s2.net.detach with
      | some (_, cmd) => let t := s2.finish cmd ST_DONE; { t with net := { t.net with detach := none } }
      | none => s2
    let s4 := if s3.job.dropSignals then { s3.syncReset 1 (fun _ => true) with job := { s3.job with dropSignals := false } } else s3
    s4.endRoll.pump

end State

end Sys2Proof.Machine
end

