-- ==== Sys2Proof/Machine/Falsework.lean ====
section
/-! DEFINITION. Falsework generations, their buddy copies, verification and restore (R405 to R419). -/

namespace Sys2Proof.Machine

abbrev FW_MAGIC : Nat := 0x46574B47
abbrev LOC : Nat := 0x10000

/-- Failure-hiding counters (R423). -/
abbrev FH_REPLAYS : Nat := 0
abbrev FH_RECOVERIES : Nat := 1
abbrev FH_GENERATIONS : Nat := 2
abbrev FH_POSTPONED : Nat := 3
abbrev FH_HOLD : Nat := 4
abbrev FH_RESENDS : Nat := 5

/-- A shard: kind, source, bytes (R413). -/
structure Shard where
  kind : Nat
  src : Nat
  len : Nat
deriving DecidableEq, Repr

/-- A generation header's fields (R413). -/
structure GenHeader where
  planId : Nat
  step : Nat
  seed : Nat
  dataPos : Nat
  gen : Nat
  leaf : Nat
  shards : Nat
  complete : Bool
  buddy : Bool
deriving DecidableEq, Repr

def GenHeader.toNat (h : GenHeader) (hcrc : Nat) : Nat :=
  FW_MAGIC * 2 ^ 480 + h.planId % 2 ^ 32 * 2 ^ 448 + h.step % 2 ^ 64 * 2 ^ 384 + h.seed % 2 ^ 64 * 2 ^ 320 + h.dataPos % 2 ^ 64 * 2 ^ 256
    + h.gen % 2 ^ 64 * 2 ^ 192 + h.leaf % 4096 * 2 ^ 180 + h.shards % 4096 * 2 ^ 168 + b2n h.complete * 2 ^ 167 + b2n h.buddy * 2 ^ 166 + hcrc % 2 ^ 32 * 2 ^ 134

def GenHeader.ofNat (v : Nat) : GenHeader :=
  { planId := fld v 479 448, step := fld v 447 384, seed := fld v 383 320, dataPos := fld v 319 256, gen := fld v 255 192
    leaf := fld v 191 180, shards := fld v 179 168, complete := bitOf v 167, buddy := bitOf v 166 }

def entryNat (x : Shard) (loc sha : Nat) : Nat := x.kind * 2 ^ 504 + x.src * 2 ^ 456 + x.len * 2 ^ 416 + loc * 2 ^ 392 + sha * 2 ^ 136

/-- First location of each shard, counted from the slot's start; the directory takes four (R413). -/
def shardLocs : Nat → List Shard → List (Shard × Nat)
  | _, [] => []
  | l, x :: xs => (x, l) :: shardLocs (l + cdiv x.len LOC) xs

/-- A stream set to begin a step afresh. -/
def StreamSt.fresh (t : StreamSt) (step : Nat) : StreamSt := { step := step, nextSeq := t.nextSeq }

namespace State

/-! ### The declaration (R410, R411) -/

def fwDecl (s : State) : Nat := s.nat PLAN_AREA 64
def fwEnabled (s : State) : Bool := s.plan.loaded && bitOf s.fwDecl 312
def fwInterval (s : State) : Nat := let n := fld s.fwDecl 511 496; if n == 0 then 100 else n
def dataAddr (s : State) : Nat := fld s.fwDecl 447 400

/-- Buddy leaf of a leaf, where it has one. -/
def buddyLeaf (s : State) (leaf : Nat) : Option Nat :=
  let b := s.nat (fld s.fwDecl 495 448 + 2 * leaf) 2
  if b == 0xFFFF then none else some b

/-! ### The barrier span (R220) -/

def barrierHandle (s : State) : Handle := Handle.ofNat (fld s.camberCtl 337 306)

/-- The piers that serve the leaves of barrier_span, in leaf order; this pier alone where the handle names nothing. -/
def barrierPiers (s : State) : List Nat :=
  let ps := if s.handleOk s.barrierHandle then (s.leafSeq s.barrierHandle).map fun l => s.servedBy l.pier else []
  if ps.isEmpty then [s.pierId] else ps

def barrierHead (s : State) : Nat := s.barrierPiers.headD s.pierId

/-- Leaf position of this pier. -/
def ownLeaf (s : State) : Option Nat := s.barrierPiers.findIdx? (· == s.pierId)

/-- A message to every other pier of barrier_span. -/
def tellSpan (s : State) (m : CtrlMsg) : State := s.sendCtrlAll s.barrierPiers m

/-- Piers of the job that hold no leaf: spares (R361). -/
def leafless (s : State) : List Nat := s.plan.piers.filter fun p => !s.barrierPiers.contains p

/-- A message to every other pier of the job. -/
def tellOwned (s : State) (m : CtrlMsg) : State := (s.tellSpan m).sendCtrlAll s.leafless m

/-- Pass 2 of a step is complete here; a pier without a leaf runs no streams. -/
def passDone (s : State) (step : Nat) : Bool := s.ownLeaf.isNone || s.pass2Done step

/-! ### Slots and shards (R413) -/

def slotBase (area : Nat × Nat) (k : Nat) : Nat := area.1 + k % 2 * ((area.2 - area.1) / LOC / 2) * LOC
def fwSlot (s : State) (k : Nat) : Nat := slotBase s.fwArea k
def budSlot (s : State) (k : Nat) : Nat := slotBase s.budArea k

/-- Layers that the U-stream programs name, K0 to K11, in program order: unit and descriptor index. -/
def programLayers (s : State) : List (Nat × Nat) :=
  ((List.range 12).flatMap fun k =>
    let c := s.ctx (.u k)
    if c.active then (List.range c.plen).filterMap fun i =>
      let w : IWord := s.nat (c.prog + 16 * i) 16
      if w.opcode == OP_UP1 || w.opcode == OP_UP2 then some (k, w.didx) else none
    else []).eraseDups

def layerOf (s : State) (x : Nat × Nat) : LayerNames := s.layerNames (.u x.1) (show IWord from x.2 * 2 ^ 112)

/-- Bytes of a layer's preconditioner region (R242). -/
def precondBytes (n : LayerNames) : Nat :=
  let nL := if n.e.left then n.l.rows / 32 else 0
  let nR := if n.e.right then n.l.cols / 32 else 0
  8192 * (nL + nR) + cdiv (nL + nR) 64 * 64

def stateShard (n : LayerNames) : Shard := { kind := 1, src := n.l.stateBase, len := 4 * n.l.pb + 64 }
def precondShard (n : LayerNames) : List Shard := if n.rule == .matrix then [{ kind := 2, src := n.l.precond, len := precondBytes n }] else []

/-- Extra regions of the declaration. -/
def extraShards (s : State) : List Shard :=
  let a := fld s.fwDecl 367 320
  (List.range (min (fld s.fwDecl 319 313) 64)).map fun i => let v := s.nat (a + 16 * i) 16; { kind := 4, src := fld v 127 80, len := fld v 79 48 }

/-- Every shard of a generation of this pier, in order. -/
def fwShards (s : State) : List Shard :=
  let ls := s.programLayers.map s.layerOf
  ls.map stateShard ++ ls.flatMap precondShard ++ [{ kind := 3, src := GROUP_CTR, len := 0x8000 }] ++ s.extraShards

/-- One shard copied to its place in a slot, with its entry and digest. -/
def copyShard (s : State) (base i : Nat) (x : Shard × Nat) : State :=
  let bs := s.bytes x.1.src x.1.len
  let s1 := s.write (base + x.2 * LOC) bs
  s1.writeNat (base + 64 + 64 * i) 64 (entryNat x.1 x.2 (beNat (sha256 (bs.map (·.1)))))

/-- The shards of a generation that a test picks, copied. -/
def copyShards (s : State) (base : Nat) (pick : Shard → Bool) : State :=
  ((shardLocs 4 s.fwShards).zipIdx.filter fun x => pick x.1.1).foldl (fun t x => t.copyShard base x.2 x.1) s

/-- A header written with its CRC over itself and the entries (R413). -/
def putHeader (s : State) (base : Nat) (h : GenHeader) : State :=
  s.writeNat base 64 (h.toNat (crc32c (natLE 64 (h.toNat 0) ++ s.data (base + 64) (64 * h.shards))))

def genHeader (s : State) (base : Nat) : GenHeader := GenHeader.ofNat (s.nat base 64)

/-! ### Taking a generation (R412 to R415) -/

/-- A generation starts at the boundary of a due step: its slot marked incomplete, and the shards that pass 2 does not
write copied at once. -/
def startGeneration (s : State) (step : Nat) : State :=
  let k := s.falsework.gens + 1
  let base := s.fwSlot k
  let s1 := s.writeNat base 64 (setFld (s.nat base 64) 167 167 0)
  let s2 := s1.copyShards base fun x => x.kind == 3 || x.kind == 4
  { s2 with falsework := { s2.falsework with
      gens := k, due := false, count := 0, run := some { step := step, gen := k, unread := s.programLayers, dataPos := s.nat s.dataAddr 8, buddyDone := (s.buddyLeaf (s.ownLeaf.getD 0)).isNone } } }

/-- Whether UP2 of a generation's step has completed for a layer (R414). -/
def up2Done (s : State) (step : Nat) (x : Nat × Nat) : Bool :=
  let r := SRef.u x.1
  let t := s.stream r
  let c := s.ctx r
  let at' := (List.range c.plen).filter fun i => let w : IWord := s.nat (c.prog + 16 * i) 16; w.opcode == OP_UP2 && w.didx == x.2
  t.step > step || (t.step == step && t.gated && at'.all fun i => i < t.pc && t.inflight.all fun y => y.pc != i || y.completed)

/-- The STATE and PRECOND shards of a layer read whole (R414). -/
def readLayer (s : State) (x : Nat × Nat) : State :=
  match s.falsework.run with
  | none => s
  | some g =>
    if !g.unread.contains x || !s.up2Done g.step x then s
    else
      let n := s.layerOf x
      let mine := stateShard n :: precondShard n
      let s1 := s.copyShards (s.fwSlot g.gen) mine.contains
      { s1 with falsework := { s1.falsework with run := some { g with unread := g.unread.filter (· != x) } } }

/-- Whether UP2 of a later step must wait for a layer's shards to be read (R414). -/
def fwHolds (s : State) (step : Nat) (x : Nat × Nat) : Bool :=
  match s.falsework.run with | some g => g.step < step && g.unread.contains x | none => false

/-- The local slot sent to the buddy: directory first, then each shard (R415). -/
def sendBuddy (s : State) (g : GenRun) : State :=
  match (s.ownLeaf.bind s.buddyLeaf).bind fun b => s.barrierPiers[b]? with
  | none => s
  | some q =>
    let src := s.fwSlot g.gen
    let dst := s.budSlot g.gen
    let h := { s.genHeader src with complete := false, buddy := true }
    let s1 := s.sendWrite 0 q dst (((natLE 64 (h.toNat 0)).map fun b => (b, false)) ++ s.bytes (src + 64) (64 * h.shards))
    (shardLocs 4 s.fwShards).foldl (fun t x => t.sendWrite 0 q (dst + x.2 * LOC) (s.bytes (src + x.2 * LOC) x.1.len)) s1

/-- One shard sent again to the buddy. -/
def resendShard (s : State) (i : Nat) : State :=
  match s.falsework.run, (s.ownLeaf.bind s.buddyLeaf).bind fun b => s.barrierPiers[b]? with
  | some g, some q =>
    match (shardLocs 4 s.fwShards)[i]? with
    | some x => s.sendWrite 0 q (s.budSlot g.gen + x.2 * LOC) (s.bytes (s.fwSlot g.gen + x.2 * LOC) x.1.len)
    | none => s
  | _, _ => s

/-- Both copies of a generation stand: its event, and the run is over. -/
def settleGeneration (s : State) : State :=
  match s.falsework.run with
  | some g =>
    if g.localDone && g.buddyDone then
      { s with falsework := { s.falsework with run := none } }.faultEvent { s.faultRec EV_GENERATION with step := g.step, value := g.step }
    else s
  | none => s

/-- Digests of the shards of a slot. -/
def slotDigests (s : State) (base : Nat) : List Nat := (List.range (s.genHeader base).shards).map fun i => fld (s.nat (base + 64 + 64 * i) 64) 391 136

/-! ### Stopping the job (R402, R403, R406, R417, R418) -/

/-- The job ends on this pier: its streams stop, and JOB_START completes (R360, R364). The plan stays loaded. -/
def endJob (s : State) (status : Nat) : State :=
  let s1 : State := { s with
    streams := s.streams.map fun x => (x.1, { x.2 with phase := .inactive, inflight := [], loops := [], chain := none, marks := [] })
    kernels := [], coll := { s.coll with runs := s.coll.runs.filter (·.op.isSome), started := false, pos := 0 } }
  let st := foldStatus status s.job.clampedSeen s.job.replayed (s.job.degraded || !s.fp.reduced.isEmpty || !s.fp.recovery.isEmpty || !s.plan.subst.isEmpty
    || allPorts.any fun p => s.portUp p && (s.port p).width < 4)
  let s2 := match s.job.cmdId with | some c => s1.finish c st | none => s1
  { s2 with job := { s2.job with running := false, ending := none, cmdId := none, holds := [], begun := [] }
            gate := { s2.gate with abort := false, votes := [], voted := none, arrived := none } }

/-- The job stops with a status on this pier, and the others are told. -/
def stopJob (s : State) (status : Nat) : State :=
  if !s.job.running then s
  else
    let s1 := if status == ST_UNRECOVERABLE then s.faultEvent (s.faultRec EV_UNRECOVERABLE) else s
    (s1.tellOwned (.jobStop status)).endJob status

/-! ### Verification and choice (R417, R418) -/

/-- Whether a slot holds an intact copy for a leaf. -/
def intact (s : State) (base leaf : Nat) : Bool :=
  let v := s.nat base 64
  let h := GenHeader.ofNat v
  h.complete && fld v 511 480 == FW_MAGIC && h.planId == s.plan.planId && h.seed == s.plan.seed && h.leaf == leaf &&
  fld v 165 134 == crc32c (natLE 64 (setFld v 165 134 0) ++ s.data (base + 64) (64 * h.shards)) &&
  (List.range h.shards).all fun i =>
    let e := s.nat (base + 64 + 64 * i) 64
    beNat (sha256 (s.data (base + fld e 415 392 * LOC) (fld e 455 416))) == fld e 391 136

/-- The leaf whose buddy is this pier's leaf. -/
def buddyOf (s : State) (leaf : Nat) : Option Nat := (List.range s.barrierPiers.length).find? fun l => s.buddyLeaf l == some leaf

/-- Intact copies on this pier: step, leaf, buddy copy, digests. -/
def copyReport (s : State) : List CopyRec :=
  match s.ownLeaf with
  | none => []
  | some l =>
    let own := [0, 1].filterMap fun k => let b := s.fwSlot k; if s.intact b l then some { step := (s.genHeader b).step, leaf := l, buddy := false, digests := s.slotDigests b } else none
    let bud := match s.buddyOf l with
      | none => []
      | some o => [0, 1].filterMap fun k => let b := s.budSlot k; if s.intact b o then some { step := (s.genHeader b).step, leaf := o, buddy := true, digests := s.slotDigests b } else none
    own ++ bud

/-- Copies of a leaf at a step among the reports: for a leaf whose pier is lost, only its buddy copy counts. -/
def copiesAt (s : State) (leaf step : Nat) : List (Bool × List Nat) :=
  (s.falsework.copies.flatMap (·.2)).filterMap fun c => if c.step == step && c.leaf == leaf then some (c.buddy, c.digests) else none

def disputed (s : State) (leaf step : Nat) : Bool :=
  match s.copiesAt leaf step with | a :: rest => rest.any fun b => b.2 != a.2 | [] => false

/-- Steps at which every leaf has an intact copy, largest first. -/
def commonSteps (s : State) : List Nat :=
  let all := ((s.falsework.copies.flatMap (·.2)).map (·.step)).eraseDups
  let ok := all.filter fun g => (List.range s.barrierPiers.length).all fun l => !(s.copiesAt l g).isEmpty
  ok.filter fun g => s.falsework.want == 0 || g % 2 ^ 32 == s.falsework.want

def maxOf (l : List Nat) : Option Nat := l.foldl (fun m x => match m with | some y => some (max x y) | none => some x) none

/-! ### Restore (R407 steps 4 and 5) -/

/-- A slot of a leaf's copies that holds a step, among the two of an area. -/
def slotWith (s : State) (area : Nat × Nat) (leaf step : Nat) : Option Nat :=
  ([0, 1].map (slotBase area)).find? fun b => s.intact b leaf && (s.genHeader b).step == step

/-- Shards of a copy put back where they came from, with the data position: here, or on another pier. -/
def putBack (s : State) (base : Nat) (pier : Option Nat) : State :=
  let put (t : State) (a : Nat) (bs : List (Byte × Bool)) : State := match pier with | none => t.write a bs | some q => t.sendWrite 0 q a bs
  let s1 := (List.range (s.genHeader base).shards).foldl (fun t i =>
    let e := s.nat (base + 64 + 64 * i) 64
    put t (fld e 503 456) (s.bytes (base + fld e 415 392 * LOC) (fld e 455 416))) s
  put s1 s.dataAddr ((natLE 8 (s.genHeader base).dataPos).map fun b => (b, false))

/-- UPDATE objects as one complete pass 2 leaves them, for the parity that a step reads, and every other object at init
(R396). -/
def restoreSyncs (s : State) (step : Nat) : State :=
  s.plan.syncs.foldl (fun t id =>
    let v := t.syncInit id + (if t.syncMode id == 2 && id / 0x8000 == step % 2 then aget t.plan.updateSums id 0 else 0)
    t.setSync id (hold32 v)) s

/-- The weight copies of every layer of this pier written from its master (R240). -/
def refreshCopies (s : State) : State := s.programLayers.foldl (fun t x => (t.copyLayer (t.layerOf x)).1) s

/-- The top span: the first composite in force that covers every member pier of the job (R23); barrier_span where none
does. -/
def topSpan (s : State) : Handle :=
  let at' (i : Nat) : Handle := Handle.ofNat (4 * 2 ^ 29 + i)
  let ix := ((s.mem.filter fun c => SPAN_TABLE ≤ c.1 && c.1 < SPAN_TABLE + 0x40000).map fun c => (c.1 - SPAN_TABLE) / 64).eraseDups
  match ix.find? fun i => s.spanValid i && s.plan.members.all ((s.spanPiers (at' i)).map fun p => p).contains with
  | some i => at' i
  | none => s.barrierHandle

/-- Leaf position of this pier in the top span (R81). -/
def topLeaf (s : State) : Nat := ((s.leafPos s.topSpan s.pierId).orElse fun _ => s.ownLeaf).getD 0

/-- The streams whose contexts are active. -/
def activeStreams (s : State) : List SRef :=
  ((List.range 2048).flatMap fun k => [SRef.f k, SRef.b k].filter fun r => (s.ctx r).active) ++
  ((List.range 12).map SRef.u).filter fun r => (s.ctx r).active

/-- A stream's own work given up: its slots but one that drains, its kernel with its lease, its reads and what it has
still to send (R114, R148). -/
def dropStream (s : State) (r : SRef) : State :=
  let s1 := match aget? s.kernels r with
    | some _ => let k := s.kernelOf r (s.head r); { s.dropLease (k.d.slot, k.d.layer, k.d.kvh) with kernels := adel s.kernels r }
    | none => s
  let s2 := if isU r then s1 else s1.discardSlots r
  { s2 with net := { s2.net with reads := s2.net.reads.filter fun x => x.stream != r } }

/-- What streams of this pier have offered and the fabric has not taken; the buddy copy's writes stay (R148, R408). -/
def dropOffered (s : State) : State :=
  { s with net := { s.net with held := s.net.held.filter fun h =>
      !(h.src.isNone && h.flit.body == .none && h.flit.type ≤ FT_SIGNAL && !(h.flit.type == FT_WRITE && inRanges [s.budArea] h.flit.addr)) } }

/-- Streams set to begin a step afresh: those that have begun it or a later one, or with `all` every stream. Earlier
steps' pass 2 goes on. -/
def restartStreams (s : State) (step : Nat) (all : Bool) : State :=
  let hit (t : StreamSt) : Bool := all || t.step ≥ step
  let rs := (s.streams.filter fun x => hit x.2).map (·.1)
  let s1 := (rs.foldl dropStream s).dropOffered
  { s1 with
    streams := if all then s1.activeStreams.map fun r => (r, (s1.stream r).fresh step)
      else s1.streams.map fun x => if hit x.2 then (x.1, x.2.fresh step) else x
    trestle := s1.trestle.map fun x =>
      if !all && x.2.step < step then x else (x.1, if step ≤ s.job.startStep then {} else { step := step - 1, running := false, pos := 1 })
    layers := s1.layers.filter fun l => l.2.step < step }

/-- Step 5: the job stands after generation g, every leaf is bound, and an epoch change follows; then the events of
step 6. -/
def finishRestore (s : State) (g : Nat) : State :=
  let pos := s.nat s.dataAddr 8
  let s1 := (s.restoreSyncs (g + 1)).refreshCopies
  let f := { s1.falsework with restoring := none, restored := [], verifying := false, copies := [], due := true, asked := none }
  if s.job.running then
    let first := min s1.job.startStep (g + 1)
    let s0 : State := { s1 with job := { s1.job with startStep := first, steps := if s1.job.steps == 0 then 0 else s1.job.steps + (s1.job.startStep - first) } }
    let s1' := s0.restartStreams (g + 1) true
    let s2 := { s1' with
      falsework := f
      plan := { s1'.plan with leaf := s1'.topLeaf }
      job := { s1'.job with decided := g + 1, attempt := 0, begun := [], faults := [], holds := s1'.job.holds.filter (· != 2), needRecovery := false, lastSkip := false, replayed := true }
      gate := { s1'.gate with votes := [], voted := none, arrived := none, lastFail := none, wrote := [], firstRead := none, writer := none, hung := none }
      coll := { s1'.coll with runs := [], parts := [], early := [], started := decide (first < g + 1), step := g, pos := if first < g + 1 then 4096 else 0 } }
    let r := { s2.faultRec EV_RECOVERED with step := g, pier := s.falsework.lost.getLastD s.pierId }
    ((s2.beginChange).faultEvent { r with value := g }).faultEvent { r with value := pos }
  else
    let st := if s.falsework.dispute.isSome then ST_REPLAYED else ST_DONE
    let s2 := { s1 with falsework := { f with resumeAt := some (g + 1), cmdId := none } }
    match s.falsework.cmdId with | some c => s2.finish c st | none => s2

/-- A pier has restored; once every serving pier has, the job goes on. -/
def restoredBy (s : State) (pier : Nat) : State :=
  let s1 := { s with falsework := { s.falsework with restored := pier :: s.falsework.restored.filter (· != pier) } }
  match s1.falsework.restoring with
  | some g => if s1.barrierPiers.all s1.falsework.restored.contains then s1.finishRestore g else s1
  | none => s1

/-- The generation chosen reaches this pier: its own leaf from the local copy, and leaves whose buddy it is from their
buddy copies (R407 step 4, R417). -/
def onRestore (s : State) (g : Nat) (fromBuddy : List Nat) (dispute : Option Nat) (digests : List (Nat × List Nat × List Nat)) : State :=
  match s.ownLeaf with
  | none => s
  | some l =>
    let own := digests.find? fun x => x.1 == l
    let dis := match dispute, own with | some d, some x => some (d, x.2) | some d, none => some (d, [], []) | none, _ => s.falsework.dispute
    let s0 : State := { s with falsework := { s.falsework with restoring := some g, verifying := false, dispute := dis } }
    let s1 := match s0.buddyOf l with
      | some o =>
        if fromBuddy.contains o then
          match s0.slotWith s0.budArea o g, s0.barrierPiers[o]? with
          | some b, some q => ((s0.putBack b (some q)).tellSpan (.restoreDone q)).restoredBy q
          | _, _ => s0
        else s0
      | none => s0
    if fromBuddy.contains l then s1
    else match s1.slotWith s1.fwArea l g with
      | some b => ((s1.putBack b none).tellSpan (.restoreDone s1.pierId)).restoredBy s1.pierId
      | none => s1

/-- The restore fails for want of a common generation, or of an agreed one: the job stops, or the operator completes. -/
def restoreFails (s : State) (status : Nat) : State :=
  let s1 := if s.job.running then s.stopJob status else
    match s.falsework.cmdId with
    | some c =>
      if s.falsework.want != 0 && status == ST_UNRECOVERABLE then
        (s.report { kind := 0, clamp := CL_NULL, widthM1 := 31, bitOff := 32, supplied := s.falsework.want } c).finish c ST_DONE
      else s.finish c status
    | none => s
  { s1 with falsework := { s1.falsework with verifying := false, copies := [], cmdId := none, want := 0 } }

/-- The lowest leaf chooses once every pier has reported (R407 step 3, R417, R418). -/
def chooseGeneration (s : State) : State :=
  let ps := s.barrierPiers
  if s.barrierHead != s.pierId || !s.falsework.verifying || !ps.all (fun p => s.falsework.copies.any (·.1 == p)) then s
  else
    let leafs := List.range ps.length
    let cs := s.commonSteps
    match maxOf cs with
    | none => s.restoreFails ST_UNRECOVERABLE
    | some g =>
      let dis := leafs.filter fun l => s.disputed l g
      let pick : Option Nat := if dis.isEmpty then some g else maxOf (cs.filter fun x => x < g && leafs.all fun l => !s.disputed l x)
      match pick with
      | none => s.restoreFails ST_DIVERGENCE
      | some g' =>
        let fb := leafs.filter fun l => !(s.copiesAt l g').any fun c => !c.1
        let dg := dis.map fun l =>
          let c := s.copiesAt l g
          (l, ((c.find? fun x => !x.1).map (·.2)).getD [], ((c.find? fun x => x.1).map (·.2)).getD [])
        let d := if dis.isEmpty then none else some g
        (s.tellSpan (.restore g' fb d dg)).onRestore g' fb d dg

/-- A pier's report of its intact copies reaches the lowest leaf. -/
def takeCopies (s : State) (pier : Nat) (rs : List CopyRec) : State :=
  let mine := rs.filter fun c => c.buddy || !(s.plan.subst.any fun x => x.2 == pier)
  { s with falsework := { s.falsework with copies := aset s.falsework.copies pier mine } }.chooseGeneration

/-- This pier verifies its local and buddy copies, and reports (R417). -/
def verifyCopies (s : State) : State :=
  if !s.falsework.verifying then s
  else if s.barrierHead == s.pierId then s.takeCopies s.pierId s.copyReport
  else { s.sendCtrl s.barrierHead (.copies s.pierId s.copyReport) with falsework := { s.falsework with verifying := false } }

/-! ### Losing a pier (R405 to R408) -/

/-- The spare that takes a lost pier's leaf: the lowest reachable one (R406). -/
def chooseSpare (s : State) : Option Nat :=
  let ok := s.plan.spares.filter fun p => !s.falsework.lost.contains p && !(s.plan.subst.any fun x => x.2 == p) && (p == s.pierId || rtReach (s.routeOf p) != 2)
  ok.foldl (fun m p => match m with | some q => some (min p q) | none => some p) none

/-- A generation being written is given up (R408). -/
def abandonRun (s : State) : State :=
  match s.falsework.run with
  | some _ => { s with falsework := { s.falsework with run := none } }.faultEvent (s.faultRec EV_GEN_FAILED)
  | none => s

/-- The job returns to falsework: streams held, copies to be verified (R407 steps 2 and 3). -/
def returnToFalsework (s : State) : State :=
  if !s.fwEnabled then s.stopJob ST_UNRECOVERABLE
  else
    let s1 := { s.abandonRun with job := { s.abandonRun.job with holds := 2 :: s.job.holds.filter (· != 2), dropSignals := true } }.bump .hiding FH_RECOVERIES
    { s1.beginChange with falsework := { s1.beginChange.falsework with verifying := true, restored := [], restoring := none, want := 0 } }

/-- A pier of the job is treated as lost (R405, R406). -/
def losePier (s : State) (p : Nat) : State :=
  if s.falsework.lost.contains p || !s.job.running then s
  else
    let s1 := { s with falsework := { s.falsework with lost := s.falsework.lost ++ [p], copies := s.falsework.copies.filter (·.1 != p) } }.faultEvent { s.faultRec EV_PIER_LOST with pier := p }
    if p == s.pierId then s1.endJob ST_UNRECOVERABLE
    else if !s1.barrierPiers.contains p then s1
    else match s1.chooseSpare with
      | none => s1.stopJob ST_UNRECOVERABLE
      | some q =>
        let leafPier := ((s1.plan.subst.find? fun x => x.2 == p).map (·.1)).getD p
        let s2 := { s1 with
          plan := { s1.plan with subst := aset s1.plan.subst leafPier q, spares := s1.plan.spares.filter (· != q) }
          job := { s1.job with degraded := true } }
        s2.returnToFalsework

/-- This pier treats a pier as lost, and tells the others. -/
def declareLost (s : State) (p : Nat) : State := (s.sendCtrlAll (s.barrierPiers ++ s.plan.spares) (.lost p)).losePier p

/-- This pier asks the whole job back to falsework. -/
def askRecovery (s : State) : State := if s.job.running then (s.tellSpan (.recover s.pierId)).returnToFalsework else s

end State

end Sys2Proof.Machine
end

