-- ==== Sys2Proof/Machine/Check.lean ====
section
/-! DEFINITION. The checks of a plan: every instruction, descriptor and table field against its range, with what its
clamp makes of it (R6, R7, R121), field map by field map. -/

namespace Sys2Proof.Machine

/-! ### Clamps (R6) -/

/-- What a field's clamp makes of a value: nothing in range, else the clamp code and the value used. -/
abbrev ClampRule := Nat → Option (Nat × Nat)

def rZero : ClampRule := fun v => if v == 0 then none else some (CL_ZERO, 0)
def rNull (ok : Nat → Bool) : ClampRule := fun v => if ok v then none else some (CL_NULL, 0)
def rDflt (ok : Nat → Bool) (d : Nat) : ClampRule := fun v => if ok v then none else some (CL_DEFAULT, d)
def rSat (lo hi : Nat) : ClampRule := fun v => if v < lo then some (CL_SAT, lo) else if v > hi then some (CL_SAT, hi) else none
def rUp (f : Nat → Nat) : ClampRule := fun v => if f v == v then none else some (CL_UP, f v)
def rDown (f : Nat → Nat) : ClampRule := fun v => if f v == v then none else some (CL_DOWN, f v)
/-- A decay field: an FP32 number at or above 0 and below 1 (R221). -/
def rDecay : ClampRule := fun v => let w := BitVec.ofNat 32 v; if decay w == w then none else some (CL_SAT, (decay w).toNat)

/-- A field of an item and its rule. -/
structure Field where
  hi : Nat
  lo : Nat
  rule : ClampRule

/-- A field checked only where it is used. -/
def Field.used (f : Field) (c : Bool) : List Field := if c then [f] else []

/-- Where an item's clamps are told: kind, context and index (R348). -/
structure Item where
  kind : Nat
  index : Nat
  ctx : Nat := 0

/-- The clamps of an item's fields; its bits lie from `off` on. -/
def checkFields (it : Item) (v : Nat) (fs : List Field) (off : Nat := 0) : List ClampRec :=
  fs.filterMap fun f =>
    let x := fld v f.hi f.lo
    (f.rule x).map fun u => { kind := it.kind, clamp := u.1, widthM1 := min 63 (f.hi - f.lo), bitOff := off + f.lo, ctx := it.ctx, index := it.index,
                              supplied := x % 2 ^ 64, used := u.2 }

/-- What a check finds: clamps, and the ranges of the items it names (R121). -/
structure Chk where
  clamps : List ClampRec := []
  named : List (Nat × Nat) := []

def Chk.also (a b : Chk) : Chk := { clamps := a.clamps ++ b.clamps, named := a.named ++ b.named }
def Chk.all (l : List Chk) : Chk := { clamps := l.flatMap (·.clamps), named := l.flatMap (·.named) }
def Chk.when (c : Bool) (x : Chk) : Chk := if c then x else {}
def Chk.ofClamps (l : List ClampRec) : Chk := { clamps := l }

/-- A Null clamp of a named field. -/
def nullAt (it : Item) (hi lo v : Nat) : ClampRec :=
  { kind := it.kind, clamp := CL_NULL, widthM1 := min 63 (hi - lo), bitOff := lo, ctx := it.ctx, index := it.index, supplied := fld v hi lo % 2 ^ 64 }

/-- A Null clamp where a condition fails. -/
def need (c : Bool) (it : Item) (hi lo v : Nat) : List ClampRec := if c then [] else [nullAt it hi lo v]

def aligned (n a : Nat) : Bool := a % n == 0

/-! ### Field maps shared by several items -/

/-- The conversion control word (R49, R59). -/
def ctlFields (debug : Bool) (lo : Nat) : List Field := [
  { hi := lo + 31, lo := lo + 31, rule := rZero },
  { hi := lo + 29, lo := lo + 28, rule := rDflt (fun v => debug || v != 3) 0 },
  { hi := lo + 17, lo := lo + 16, rule := rDflt (· ≤ 1) 0 }]

/-- The tensor format field at a bit (R42, R43). -/
def fmtFields (word lo : Nat) : List Field := [
  { hi := lo + 15, lo := lo + 13, rule := rZero },
  { hi := lo + 8, lo := lo + 7, rule := rDflt (fun v => v == 0 || word % 32 < 0x0B) 0 },
  { hi := lo + 4, lo := lo, rule := rNull fun v => 1 ≤ v && v ≤ 0x0E }]

/-- The wait half of a trestle or collective list entry (R164, R295). -/
def entryFields : List Field := [
  { hi := 49, lo := 49, rule := rZero }, { hi := 47, lo := 46, rule := rDflt (· ≤ 1) 1 }, { hi := 11, lo := 0, rule := rZero }]

/-- Width class of a format: 4, 8, 12, 16 or 32 bits (R90). -/
def widthClass (o : OpDesc) : Nat :=
  match o.elem with
  | .b1 | .t2 | .i2 | .i4 | .p4 => 4
  | .p6a | .p6b | .e4m3 | .e5m2 | .i8 => 8
  | .g12 => 12
  | .bf16 | .fp16 => 16
  | .fp32 => 32

namespace State

/-! ### Places -/

/-- Ordinary memory an agent may name in a plan, whatever is served (R89, R250, R254, R258, R270). -/
def window (s : State) (g : Agent) (a : Nat) : Bool :=
  let core : Bool := CORE_BASE ≤ a && coreSlotOf a < 2048 && inCore (coreSlotOf a) a
  let cluster : Bool := CLUSTER_BASE ≤ a && clusterSlotOf a < 64 && inCluster (clusterSlotOf a) a
  let hbm : Bool := isHbm a && !isReserve a
  match g with
  | .array k => inCore k a
  | .drain k => inCore k a || inCluster (k / 32) a
  | .vec k | .router k => inCore k a || inCluster (k / 32) a || hbm
  | .move => core || cluster || hbm || (DDR_BASE ≤ a && a < DDR_BASE + s.ddrBytes && !s.deviceOwned a) || inRanges descRanges a || isPageWindow a
  | .trestle c => inCluster c a
  | .camber _ => hbm
  | .tier => isHbm a || isDdr a
  | .host => hbm || (DDR_BASE ≤ a && a < DDR_BASE + s.ddrBytes && !s.deviceOwned a)
  | .op => hbm || cluster || (DDR_BASE ≤ a && a < DDR_BASE + s.ddrBytes && !s.deviceOwned a)

/-- A field that a core's engine takes in its own cluster memory or HBM; an operator's, where operators may name memory
(R323). -/
def near (s : State) (g : Agent) (core n a : Nat) : Bool :=
  aligned n a && (match g with | .op => s.window .op a | _ => inCluster (core / 32) a || (isHbm a && !isReserve a))

/-- Where a plan's descriptors lie: the plan descriptor area after the falsework declaration (R270, R410). -/
def planPlace (a n : Nat) : Bool := PLAN_AREA + 64 ≤ a && a + n ≤ PLAN_AREA_END

/-- A 64-byte descriptor as an item. -/
def descItem (a : Nat) : Item := { kind := 1, index := a / 64 }

/-- The descriptor an index of an item names: a Null clamp of the index where it lies outside its place, and otherwise
what its own check finds. -/
def named (it : Item) (hi lo v dbase : Nat) (f : Nat → Chk) : Chk :=
  let a := dbase + 64 * fld v hi lo
  if planPlace a 64 then { (f a) with named := (a, a + 64) :: (f a).named } else { clamps := [nullAt it hi lo v] }

/-- The descriptor an address field names. -/
def namedAt (it : Item) (hi lo v : Nat) (f : Nat → Chk) : Chk :=
  let a := fld v hi lo
  if planPlace a 64 && aligned 64 a then { (f a) with named := (a, a + 64) :: (f a).named } else { clamps := [nullAt it hi lo v] }

/-! ### Operand, tile and drain descriptors (R89, R90, R107, R128, R130, R150) -/

def operandAt (s : State) (a : Nat) : OpDesc := OpDesc.ofNat (s.nat a 64)

/-- An operand descriptor whose addresses an agent reaches, its element code as its use takes it. -/
def checkOpAs (s : State) (take : Nat → Nat) (g : Agent) (a : Nat) : Chk :=
  let v0 := s.nat a 64
  let v := take v0
  let o := OpDesc.ofNat v
  let w (n : Nat) : ClampRule := rNull fun x => s.window g x && aligned n x
  let kind := match o.fmt with | some f => f.kind | none => .none
  { clamps := (if v == v0 then [] else
      [{ kind := 1, clamp := CL_DEFAULT, widthM1 := 4, bitOff := 448, index := a / 64, supplied := fld v0 452 448, used := fld v 452 448 }]) ++
      checkFields (descItem a) v (
      [{ hi := 511, lo := 464, rule := w 1 }] ++ fmtFields (fld v 463 448) 448 ++
      [{ hi := 447, lo := 416, rule := rNull (· ≥ 1) }, { hi := 415, lo := 384, rule := rNull (· ≥ 1) },
       { hi := 383, lo := 352, rule := rUp fun x => max x (packedRow o.fmt o.maskEn o.inner) }] ++
      Field.used { hi := 351, lo := 304, rule := w 1 } (kind != .none) ++
      Field.used { hi := 303, lo := 256, rule := w 4 } (kind == .e4m3t) ++
      Field.used { hi := 255, lo := 208, rule := w 4 } ((o.fmt.map (·.smooth)).getD false) ++
      Field.used { hi := 207, lo := 160, rule := w 8 } ((o.fmt.map (·.outlier)).getD false) ++
      Field.used { hi := 159, lo := 112, rule := w 8 } o.maskEn ++
      Field.used { hi := 111, lo := 64, rule := w 1 } o.zmapEn ++
      Field.used { hi := 63, lo := 16, rule := w 1 } o.sideEn ++
      [{ hi := 11, lo := 0, rule := rZero }]) }

def checkOp (s : State) (g : Agent) (a : Nat) : Chk := s.checkOpAs id g a

/-- A drain descriptor of a core (R107): its own fields, its output and its pre-activation tensor. -/
def checkDrain (s : State) (core a : Nat) (g : Agent := .drain core) : Chk :=
  let v := s.nat a 64
  let d := DrainDesc.ofNat v
  let it := descItem a
  let own (n : Nat) : ClampRule := rNull fun x => aligned n x && (if g == .op then s.window .op x else inCore core x)
  let fs : List Field := [{ hi := 511, lo := 480, rule := rDflt (fun x => finite32 (BitVec.ofNat 32 x)) 0x3F800000 }] ++ ctlFields s.inDebug 448 ++
    Field.used { hi := 351, lo := 304, rule := own 4 } d.biasEn ++ Field.used { hi := 303, lo := 256, rule := own 4 } d.cscaleEn ++
    Field.used { hi := 255, lo := 208, rule := own 16 } d.vhookEn ++ Field.used { hi := 207, lo := 160, rule := own 1 } d.zmapEn ++
    [{ hi := 159, lo := 155, rule := rDflt (· ≤ 7) 0 }, { hi := 154, lo := 153, rule := rDflt (· ≤ 2) 0 },
     { hi := 152, lo := 148, rule := rDflt (fun x => x == 0x0B || x == 0x0C) 0x0C }, { hi := 142, lo := 0, rule := rZero }]
  let aux (x : Nat) : Chk :=
    let o := s.operandAt x
    let plain := o.fmt.any fun f => f.elem == d.auxElem && f.kind == .none && f.rot == 0 && !f.smooth && !f.outlier
    (s.checkOp g x).also (.ofClamps (need (d.fmode != 2 || (plain && !o.maskEn && !o.sideEn)) it 399 352 v))
  (Chk.ofClamps (checkFields it v fs)).also ((namedAt it 447 400 v (s.checkOp g)).also
    (Chk.when (d.fmode != 0) (namedAt it 399 352 v aux)))

/-- Reserved bits and lengths of a tile descriptor (R128). -/
def tileFields : List Field := [{ hi := 463, lo := 458, rule := rSat 0 47 }, { hi := 237, lo := 0, rule := rZero }]

/-- Operands an array of a stream accepts (R47, R90, R150). -/
def pairOk (table isF : Bool) (r c : OpDesc) : Bool :=
  if table then
    (match r.elem with | .i4 | .p4 | .p6a | .p6b | .e4m3 | .e5m2 | .i8 => true | _ => false) &&
    (match c.elem with | .b1 | .t2 | .i2 | .i4 | .i8 => true | _ => false) && !c.maskEn
  else if isF then widthClass r ≤ 8 && widthClass c ≤ 8
  else widthClass r ≤ 16 && widthClass c ≤ 16

/-- A tile descriptor of an F- or B-stream's product. -/
def checkTile (s : State) (it : Item) (w : IWord) (core dbase : Nat) (table isF : Bool) (a : Nat) : Chk :=
  let v := s.nat a 64
  let d := descItem a
  let td := TileDesc.ofNat v
  let ok := pairOk table isF (s.operandAt (dbase + 64 * td.rowOp)) (s.operandAt (dbase + 64 * td.colOp))
  Chk.all [.ofClamps (checkFields d v tileFields), named d 511 496 v dbase (s.checkOp (.array core)), named d 495 480 v dbase (s.checkOp (.array core)),
    named d 479 464 v dbase (s.checkDrain core), .ofClamps (need ok it 127 112 w)]

/-! ### Conversions and copies (R134, R136) -/

def checkConv (s : State) (w : IWord) (core dbase a : Nat) (g : Agent := .vec core) : Chk :=
  let v := s.nat a 64
  let c := ConvDesc.ofNat v
  let dst := s.operandAt (dbase + 64 * c.dstOp)
  let cell : ClampRule := rNull (s.near g core 4)
  let am := w.opcode == OP_QAMAX || (w.opcode == OP_QCONV && c.fromCells)
  let ch := w.opcode == OP_QCHAMAX || (w.opcode == OP_QCONV && c.fromCells && (dst.fmt.map (·.outlier)).getD false && fld w 81 80 == 1)
  Chk.all [.ofClamps (checkFields (descItem a) v (Field.used { hi := 479, lo := 432, rule := cell } am ++ Field.used { hi := 431, lo := 384, rule := cell } ch ++
      [{ hi := 351, lo := 320, rule := rNull (· ≥ 1) }, { hi := 285, lo := 0, rule := rZero }])),
    named (descItem a) 511 496 v dbase (s.checkOp g), named (descItem a) 495 480 v dbase (s.checkOp g)]

/-- The form of a fabric address (R32). What an access through it finds is the copy's own clamp (R33, R137). -/
def copyEnd (x : Nat) : Bool := fld x 63 60 == 0

def checkCopy (s : State) (w : IWord) (a : Nat) : Chk :=
  let v := s.nat a 64
  let fill := w.opcode == OP_MFILL
  .ofClamps (checkFields (descItem a) v (
    Field.used { hi := 511, lo := 448, rule := rNull copyEnd } (!fill) ++
    [{ hi := 447, lo := 384, rule := rNull copyEnd },
     { hi := 383, lo := 352, rule := rUp fun x => if fill then min (cdiv (max x 1) 4 * 4) 4294967292 else max x 1 },
     { hi := 351, lo := 320, rule := rNull (· ≥ 1) }, { hi := 127, lo := 0, rule := rZero }]))

/-! ### Kernel descriptors (R174, R175, R197, R199) -/

def finiteField (hi lo d : Nat) : Field := { hi := hi, lo := lo, rule := rDflt (fun x => finite32 (BitVec.ofNat 32 x)) d }

def checkAttn (s : State) (it : Item) (w : IWord) (core dbase : Nat) (isF : Bool) (a : Nat) (g : Agent := .vec core) : Chk :=
  let v := s.nat a 64
  let d := descItem a
  let bwd := fld v 491 490 == 1
  let near (n : Nat) : ClampRule := rNull (s.near g core n)
  let ring := fld v 199 196
  let op := s.checkOp g
  Chk.all [.ofClamps (checkFields d v ([{ hi := 491, lo := 490, rule := rDflt (· ≤ 1) 0 }, { hi := 486, lo := 473, rule := rSat 0 8192 },
      finiteField 472 441 0] ++ Field.used { hi := 375, lo := 328, rule := near 8 } bwd ++ [{ hi := 327, lo := 280, rule := near 16 }] ++
      ctlFields s.inDebug 248 ++ fmtFields (fld v 247 232) 232 ++ [{ hi := 244, lo := 241, rule := rZero }] ++ ctlFields s.inDebug 200 ++
      [{ hi := 195, lo := 192, rule := rSat 0 ring }] ++
      Field.used { hi := 191, lo := 144, rule := rNull fun x => aligned 0x10000 x && isHbm x && !isReserve x } (ring > 0) ++
      [{ hi := 139, lo := 118, rule := rSat 0 2097151 }, { hi := 101, lo := 0, rule := rZero }])),
    named d 439 424 v dbase op, named d 423 408 v dbase op,
    Chk.when bwd (named d 407 392 v dbase op), Chk.when bwd (named d 391 376 v dbase op),
    .ofClamps (need (!isF || (!bwd && !bitOf v 440)) it 127 112 w)]

def checkRoute (s : State) (it : Item) (w : IWord) (core dbase : Nat) (isF : Bool) (a : Nat) (g : Agent := .vec core) : Chk :=
  let v := s.nat a 64
  let d := descItem a
  let code := fld w 111 104
  let near (n : Nat) : ClampRule := rNull (s.near g core n)
  let e := fld v 95 86
  let gate := code == 0xA2 && !bitOf v 78
  let rt := code == 0xA2 || code == 0xA5
  let yc := code == 0xA3 || code == 0xA4
  let op := s.checkOp g
  let wide (x : Nat) : Bool := match (s.operandAt x).elem with | .bf16 | .fp32 => true | _ => false
  let gop (x : Nat) : Chk := (op x).also (.ofClamps (need (wide x) (descItem x) 452 448 (s.nat x 64)))
  Chk.all [.ofClamps (checkFields d v (Field.used { hi := 479, lo := 432, rule := near 4 } rt ++
      Field.used { hi := 431, lo := 384, rule := rNull fun x => s.window (if g == .op then .op else .router core) x && aligned 4 x } (code == 0xA2 && bitOf v 79) ++
      [{ hi := 383, lo := 336, rule := near 64 }] ++ Field.used { hi := 287, lo := 240, rule := near 4 } (code == 0xA4 || code == 0xA5) ++
      (if yc then ctlFields s.inDebug 208 else []) ++ (if rt then [finiteField 207 176 0x3F800000] else []) ++
      [{ hi := 85, lo := 83, rule := rSat 0 e }] ++ Field.used { hi := 77, lo := 30, rule := near 4 } (code == 0xA5) ++ [{ hi := 29, lo := 0, rule := rZero }])),
    Chk.when gate (named d 511 496 v dbase gop), Chk.when gate (named d 495 480 v dbase gop),
    Chk.when yc (named d 335 320 v dbase op), Chk.when yc (named d 319 304 v dbase op), Chk.when (code == 0xA4) (named d 303 288 v dbase op),
    .ofClamps (need (!isF || code == 0xA2 || code == 0xA3) it 127 112 w)]

/-! ### Layers (R219 to R226) -/

def inStack (s : State) (k a n : Nat) : Bool := k * s.localGib * GiB ≤ a && a + n ≤ (k + 1) * s.localGib * GiB

/-- A coefficient entry and the valid run of its curve (R221, R223). -/
def checkCoeff (s : State) (g : Nat) : List ClampRec :=
  let a := COEFF + 64 * g
  let v := s.nat a 64
  let one := fOne
  let b1 := (fsub one (decay (BitVec.ofNat 32 (fld v 511 480)))).toNat
  let b2 := (fsub one (decay (BitVec.ofNat 32 (fld v 447 416)))).toNat
  let pos (d : Nat) : ClampRule := rDflt (fun x => posFinite (BitVec.ofNat 32 x)) d
  let nonneg : ClampRule := rDflt (fun x => nonnegFinite (BitVec.ofNat 32 x)) 0
  let bps := (List.range 64).map fun j => Breakpoint.ofNat (s.nat (SCHED + 1024 * fld v 287 280 + 16 * j) 16)
  let n := (validRun none bps).length
  checkFields { kind := 1, index := a / 64 } v (
    [{ hi := 511, lo := 480, rule := rDecay }, finiteField 479 448 b1, { hi := 447, lo := 416, rule := rDecay }, finiteField 415 384 b2,
     { hi := 383, lo := 352, rule := pos (pow2 (-27)).toNat }, { hi := 351, lo := 320, rule := nonneg }] ++ ctlFields s.inDebug 288 ++
    [{ hi := 279, lo := 278, rule := rDflt (· ≤ 2) 0 }, { hi := 274, lo := 273, rule := rDflt (· ≥ 1) 3 }, { hi := 272, lo := 257, rule := rSat 1 65535 },
     { hi := 256, lo := 225, rule := pos (pow2 (-20)).toNat }, { hi := 219, lo := 0, rule := rZero }]) ++
  -- the breakpoint that cuts a run off is reported at its tstep; the code and the value used are the model's
  (if runCut none bps then
    let b := SCHED + 1024 * fld v 287 280 + 16 * n
    [{ kind := 1, clamp := CL_DEFAULT, widthM1 := 47, bitOff := 80, index := b / 16, supplied := fld (s.nat b 16) 127 80 }] else []) ++
  (List.range n).flatMap fun j =>
    let b := SCHED + 1024 * fld v 287 280 + 16 * j
    checkFields { kind := 1, index := b / 16 } (s.nat b 16) [{ hi := 79, lo := 48, rule := nonneg }, { hi := 45, lo := 0, rule := rZero }]

/-- A layer descriptor of a camber unit, without the two address checks that follow the capacity check (R226, R255). -/
def checkLayer (s : State) (unit dbase a : Nat) : Chk :=
  let v := s.nat a 64
  let l := LayerDesc.ofNat v
  let d := descItem a
  let op := s.checkOp (.camber unit)
  let o (hi lo : Nat) : OpDesc := s.operandAt (dbase + 64 * fld v hi lo)
  let g := o 415 400
  let f := o 399 384
  let b := o 383 368
  let gOk := g.rows == l.rows && g.inner == l.cols && (match g.elem with | .g12 | .bf16 | .fp16 | .fp32 => true | _ => false) &&
    (g.fmt.all fun x => x.rot == 0 && !x.smooth && !x.outlier) && !g.maskEn && !g.sideEn
  let fOk := f.rows == l.rows && f.inner == l.cols
  let bOk := b.rows == l.cols && b.inner == l.rows && !(l.fwdEn && f.maskEn && !b.maskEn)
  Chk.all [.ofClamps (checkFields d v [{ hi := 298, lo := 286, rule := rNull (· < s.telLayers) }, { hi := 285, lo := 0, rule := rZero }]),
    .ofClamps (need (l.rows * l.cols ≤ 2147483648) d 463 440 v), .ofClamps (need gOk d 415 400 v),
    .ofClamps (need (!l.fwdEn || fOk) d 399 384 v), .ofClamps (need (!l.bwdEn || bOk) d 383 368 v),
    named d 415 400 v dbase op, Chk.when l.fwdEn (named d 399 384 v dbase op), Chk.when l.bwdEn (named d 383 368 v dbase op),
    .ofClamps (s.checkCoeff l.group)]

/-- The address checks of a layer: its state and preconditioner regions lie stack-local to its unit (R219, R226). -/
def layerPlaces (s : State) (x : Nat × Nat) : List ClampRec :=
  let r := SRef.u x.1
  let a := s.descAddr r x.2
  let v := s.nat a 64
  let n := s.layerOf x
  need (aligned 64 n.l.stateBase && s.inStack x.1 n.l.stateBase (4 * n.l.pb + 64)) (descItem a) 511 464 v ++
  need (n.rule != .matrix || (aligned 4096 n.l.precond && s.inStack x.1 n.l.precond (precondBytes n))) (descItem a) 346 299 v

end State

end Sys2Proof.Machine
end

