-- ==== Sys2Proof/Machine/PlanCheck.lean ====
section
/-! DEFINITION. The checks of a whole plan: programs, sync objects, lists, declarations and capacities (R121, R139 to
R144, R186, R225, R255, R258, R311, R372, R411, R413, R416, R463). -/

namespace Sys2Proof.Machine

/-- A stream program to be checked: its stream and the address of its context. -/
structure Prog where
  ref : SRef
  at' : Nat
deriving DecidableEq, Repr

def SRef.code : SRef → Nat | .f _ => 0 | .b _ => 1 | .u _ => 2

/-- Capacity codes (R463). -/
abbrev CAP_STACK : Nat := 1
abbrev CAP_FRAMES : Nat := 2
abbrev CAP_DDR : Nat := 3
abbrev CAP_STAGES : Nat := 4
abbrev CAP_SHARDS : Nat := 5
abbrev CAP_UNSERVED : Nat := 6

/-- One place of a program: its instruction, the starts of the loops it stands in, innermost first, and how often it
runs in a step at most. -/
structure Place1 where
  pc : Nat
  word : IWord
  loops : List Nat
  /-- largest innermost loop index -/
  top : Nat
  trips : Nat
  /-- a GATE stands before it -/
  gated : Bool
  /-- an ENDLOOP without its LOOP, or a loop nested too deep (R144) -/
  bad : Bool

/-- A program walked from an instruction on: open loops with their counts, innermost first. -/
def walk : List IWord → Nat → List (Nat × Nat) → Bool → List Place1
  | [], _, _, _ => []
  | w :: ws, pc, ls, g =>
    let here (bad : Bool) : Place1 :=
      { pc := pc, word := w, loops := ls.map (·.1), top := (ls.map (·.2)).headD 1 - 1, trips := (ls.map (·.2)).foldl (· * ·) 1, gated := g, bad := bad }
    let op := w.opcode
    if op == OP_LOOP then here (ls.length ≥ 4) :: walk ws (pc + 1) ((pc, fld w 127 112) :: ls) g
    else if op == OP_LOOPM then here (ls.length ≥ 4) :: walk ws (pc + 1) ((pc, max (fld w 79 64) 1) :: ls) g
    else if op == OP_ENDLOOP then here ls.isEmpty :: walk ws (pc + 1) (ls.drop 1) g
    else here false :: walk ws (pc + 1) ls (g || op == OP_GATE)

/-- A site that signals an object (R143): its kind of stream, the object as named, and its largest amount in a step. -/
structure Site1 where
  item : Item
  word : Nat
  id : Nat
  par : Bool
  post : Bool
  amount : Nat

/-- A place that waits on an object. -/
structure Wait1 where
  item : Item
  word : Nat
  id : Nat
  par : Bool
  post : Bool
  value : Nat

namespace State

/-! ### Programs -/

def ctxAt (s : State) (p : Prog) : SCtx := SCtx.ofNat (s.nat p.at' 32)

/-- Programs of the active contexts. -/
def baseProgs (s : State) : List Prog :=
  (((List.range 2048).flatMap fun k => [SRef.f k, SRef.b k]) ++ (List.range 12).map SRef.u).filterMap fun r =>
    if (s.ctx r).active then some { ref := r, at' := ctxAddr r } else none

/-- Programs of the alternative sets of reduced placements (R19). -/
def altProgs (s : State) : List Prog :=
  (List.range 64).flatMap fun cs =>
    let e := s.reducedEntry cs
    if fld e 207 176 == 0 then []
    else (List.range 32).flatMap fun i =>
      if !bitOf (fld e 207 176) i then []
      else (List.range 32).flatMap fun j =>
        let a := fld e 255 208 + 2048 * i + 64 * j
        [{ ref := .f (32 * cs + j), at' := a }, { ref := .b (32 * cs + j), at' := a + 32 : Prog }].filter fun p => (s.ctxAt p).active

def progWords (s : State) (c : SCtx) : List IWord := (List.range c.plen).map fun i => s.nat (c.prog + 16 * i) 16

def progPlaces (s : State) (p : Prog) : List Place1 := walk (s.progWords (s.ctxAt p)) 0 [] false

def progItem (p : Prog) (i : Nat) : Item := { kind := 2, index := i, ctx := SRef.code p.ref * 65536 + coreOf p.ref }

/-- Opcodes the sequencer executes (R120). -/
def seqOp (op : Nat) : Bool := (0x60 ≤ op && op ≤ 0x63) || (0x70 ≤ op && op ≤ 0x76) || op == OP_MARK

/-- Whether a stream accepts an opcode (R120). -/
def opcodeOk (r : SRef) (op : Nat) : Bool :=
  match r with
  | .u _ => seqOp op || op == OP_UP1 || op == OP_UP2
  | .f _ => seqOp op || op == OP_TPROD || op == OP_TBPROD || op == OP_VRUN || (0x40 ≤ op && op ≤ 0x42) || (0x50 ≤ op && op ≤ 0x52)
  | .b _ => seqOp op || op == OP_TPROD || op == OP_VRUN || (0x40 ≤ op && op ≤ 0x42) || (0x50 ≤ op && op ≤ 0x52)

/-- Whether an opcode that the stream accepts accepts the engine (R120). -/
def engineOk (r : SRef) (w : IWord) : Bool :=
  let op := w.opcode
  let e := w.engine
  if seqOp op then e == ENG_SEQ
  else if op == OP_TPROD then (match r with | .f _ => e == ENG_F | _ => e == ENG_B0 || e == ENG_B1 || e == ENG_BANY)
  else if op == OP_TBPROD then e == ENG_T
  else if op == OP_VRUN || (0x40 ≤ op && op ≤ 0x42) then e == ENG_V
  else if 0x50 ≤ op && op ≤ 0x52 then e == ENG_M
  else e == ENG_CAMBER

/-- Operand fields of an opcode with their clamps, descriptor indices apart. -/
def operandFields (s : State) (r : SRef) (w : IWord) (colI8 : Bool) : List Field :=
  let isF := match r with | .f _ => true | _ => false
  let z (hi lo : Nat) : Field := { hi := hi, lo := lo, rule := rZero }
  let core := coreOf r
  match w.opcode with
  | 0x10 => (if isF then [{ hi := 108, lo := 108, rule := rNull (· == 0) }, { hi := 107, lo := 107, rule := rNull (· == 0) }] else []) ++ [z 106 64]
  | 0x20 => [z 108 107] ++ (if colI8 then [] else [z 106 104]) ++ [z 87 64]
  | 0x30 => if kernelCode w then [z 103 64] else []
  | 0x40 | 0x41 | 0x42 => [z 111 96] ++ ctlFields s.inDebug 64
  | 0x50 => [z 110 64]
  | 0x51 => [z 111 96]
  | 0x52 => [z 123 120, { hi := 119, lo := 72, rule := rNull (inCore core) }, z 71 64]
  | 0x61 => [{ hi := 127, lo := 96, rule := rDflt (· ≥ 1) 1 }, z 95 64]
  | 0x62 => [z 95 64]
  | 0x63 => [{ hi := 127, lo := 96, rule := rNull fun x => s.handleOk (Handle.ofNat x) }]
  | 0x70 => [z 111 64]
  | 0x71 => [{ hi := 127, lo := 80, rule := rNull fun a => aligned 4 a &&
      (match r with | .u _ => (isHbm a && !isReserve a) || (List.range 64).any fun c => inCluster c a | _ => inCore core a || inCluster (core / 32) a) }]
  | 0x76 => [z 107 96]
  | 0x80 => [{ hi := 95, lo := 94, rule := rDflt (· ≤ 2) 2 }, z 92 64]
  | 0x60 | 0x72 | 0x73 | 0x74 | 0x75 => [z 127 64]
  | _ => [z 111 64]

/-- The descriptors an instruction names. -/
def operandNames (s : State) (r : SRef) (c : SCtx) (it : Item) (w : IWord) : Chk :=
  let core := coreOf r
  let isF := match r with | .f _ => true | _ => false
  match w.opcode with
  | 0x10 => named it 127 112 w c.dbase (s.checkTile it w core c.dbase false isF)
  | 0x20 => named it 127 112 w c.dbase (s.checkTile it w core c.dbase true isF)
  | 0x30 =>
    if fld w 111 104 == 0xA1 then named it 127 112 w c.dbase (s.checkAttn it w core c.dbase isF)
    else if kernelCode w then named it 127 112 w c.dbase (s.checkRoute it w core c.dbase isF)
    else {}
  | 0x40 | 0x41 | 0x42 => named it 127 112 w c.dbase (s.checkConv w core c.dbase)
  | 0x50 | 0x51 => named it 127 112 w c.dbase (s.checkCopy w)
  | 0x90 | 0x91 => named it 127 112 w c.dbase (s.checkLayer core c.dbase)
  | _ => {}

/-- Whether a branch stays in its innermost loop body (R144). -/
def branchOk (ps : List Place1) (p : Place1) : Bool :=
  let t := (p.pc : Int) + sext 16 (fld p.word 127 112)
  0 ≤ t && ps.any fun q => (q.pc : Int) == t && q.loops == p.loops

/-- One program checked (R120 to R124, R144). -/
def checkProg (s : State) (p : Prog) : Chk :=
  let c := s.ctxAt p
  let v := s.nat p.at' 32
  let it : Item := { kind := 1, index := p.at' / 32 }
  let core := coreOf p.ref
  let place : ClampRule := rNull fun a => aligned 16 a && ((isHbm a && !isReserve a) || (match p.ref with | .u _ => false | _ => inCore core a || inCluster (core / 32) a))
  let isF := match p.ref with | .f _ => true | _ => false
  let ps := s.progPlaces p
  let gates := ps.filter fun q => q.word.opcode == OP_GATE
  let one (q : Place1) : Chk :=
    let i := progItem p q.pc
    let td := TileDesc.ofNat (s.nat (c.dbase + 64 * q.word.didx) 64)
    let colI8 := (s.operandAt (c.dbase + 64 * td.colOp)).elem == .i8
    if !opcodeOk p.ref (IWord.opcode q.word) then .ofClamps [nullAt i 7 0 q.word] else
    (Chk.ofClamps (checkFields i q.word ([{ hi := 47, lo := 46, rule := rDflt (· ≤ 1) 1 }] ++ s.operandFields p.ref q.word colI8) ++
      need (engineOk p.ref q.word) i 11 8 q.word ++ need (!q.bad) i 7 0 q.word ++
      need (q.word.opcode != OP_BRIDX || branchOk ps q) i 127 112 q.word)).also (s.operandNames p.ref c i q.word)
  let own := checkFields it v ([{ hi := 255, lo := 208, rule := place },
      { hi := 207, lo := 160, rule := rNull fun a => aligned 64 a && isDesc a && !isPageWindow a }, { hi := 159, lo := 144, rule := rNull (· ≥ 1) }] ++
      (if isF then [] else [{ hi := 143, lo := 143, rule := rZero }]) ++ [{ hi := 141, lo := 0, rule := rZero }])
  if own.any (fun x => x.clamp == CL_NULL) then .ofClamps own
  else
    Chk.all [.ofClamps own, { clamps := [], named := [(c.prog, c.prog + 16 * c.plen)] }, Chk.all (ps.map one),
      .ofClamps (match ps.getLast? with | some q => need (q.word.opcode == OP_END) (progItem p q.pc) 7 0 q.word | none => []),
      .ofClamps (match ps.getLast?, gates with | some q, [] => [nullAt (progItem p q.pc) 7 0 q.word] | _, _ => []),
      .ofClamps ((gates.drop 1).map fun q => nullAt (progItem p q.pc) 7 0 q.word)]

/-- Reserved bits of a context that is not active (R122). -/
def checkIdleCtx (s : State) (r : SRef) : List ClampRec :=
  if (s.ctx r).active then [] else checkFields { kind := 1, index := ctxAddr r / 32 } (s.nat (ctxAddr r) 32) [{ hi := 141, lo := 0, rule := rZero }]

/-! ### Lists (R164, R165, R295, R298, R299) -/

/-- A trestle job's tile (R162, R165). -/
def checkTrestleTile (s : State) (c dbase a : Nat) : Chk :=
  let v := s.nat a 64
  let d := descItem a
  let wide (x : Nat) : Bool := match (s.operandAt x).elem with | .bf16 | .fp32 => true | _ => false
  let inp (x : Nat) : Chk := (s.checkOp (.trestle c) x).also (.ofClamps (need (wide x) (descItem x) 452 448 (s.nat x 64)))
  let out (x : Nat) : Chk := s.checkOpAs trestleOut (.trestle c) x
  let dr (x : Nat) : Chk :=
    let dv := s.nat x 64
    let dd := DrainDesc.ofNat dv
    (Chk.ofClamps (checkFields (descItem x) dv ([{ hi := 511, lo := 480, rule := rDflt (fun y => finite32 (BitVec.ofNat 32 y)) 0x3F800000 }] ++
      Field.used { hi := 351, lo := 304, rule := rNull fun y => inCluster c y && aligned 4 y } dd.biasEn))).also (namedAt (descItem x) 447 400 dv out)
  Chk.all [.ofClamps (checkFields d v tileFields), named d 511 496 v dbase inp, named d 495 480 v dbase inp, named d 479 464 v dbase dr]

def listItem (stream slot i : Nat) : Item := { kind := 2, index := i, ctx := stream * 65536 + slot }

/-- The trestle list of a cluster slot. -/
def checkTrestle (s : State) (c : Nat) : Chk :=
  let a := TRESTLE_CTX + 32 * c
  let v := s.nat a 32
  let x := s.trestleCtx c
  let it : Item := { kind := 1, index := a / 32 }
  if !x.active then .ofClamps (checkFields it v [{ hi := 195, lo := 0, rule := rZero }])
  else
    (Chk.ofClamps (checkFields it v [{ hi := 255, lo := 208, rule := rNull fun a => aligned 64 a && isDesc a && !isPageWindow a },
      { hi := 207, lo := 197, rule := rSat 0 1024 }, { hi := 195, lo := 0, rule := rZero }])).also
    (Chk.all ((List.range x.count).map fun i =>
      let w := s.nat (TRESTLE_JOBS + 0x4000 * c + 16 * i) 16
      let e := ListEntry.ofNat w
      let it := listItem 3 c i
      (Chk.ofClamps (checkFields it w ([{ hi := 111, lo := 64, rule := rZero }] ++ entryFields) ++
        need (!e.sigEn || s.syncMode e.sigId == 1) it 43 28 w)).also (named it 127 112 w x.dbase (s.checkTrestleTile c x.dbase))))

/-- A collective descriptor against the rules of its kind (R205, R298, R299). -/
def checkColl (s : State) (dbase : Nat) (reshard : Bool) (a : Nat) : Chk :=
  let v := s.nat a 64
  let d := descItem a
  let c := CollDesc.ofNat v
  let red := 1 ≤ c.kind && c.kind ≤ 3
  let copy := 4 ≤ c.kind && c.kind ≤ 6
  let routed := 7 ≤ c.kind && c.kind ≤ 9
  let perm := c.kind == 10
  let leafs := s.leafSeq c.span
  let spanOk := s.handleOk c.span && leafs.all (fun l => l.level == 3) && (leafs.any fun l => s.servedBy l.pier == s.pierId)
  let n := leafs.length
  let op := s.checkOp .move
  let src := s.operandAt (dbase + 64 * c.srcOp)
  let dst := s.operandAt (dbase + 64 * c.dstOp)
  let total := if c.pairIn then src.rows * src.inner / 2 else src.rows * src.inner
  let plain (o : OpDesc) : Bool := o.fmt.all fun f => f.kind == .none
  let srcOk := match src.elem with
    | .e4m3 | .e5m2 | .p4 => true
    | .g12 | .bf16 | .fp32 => plain src
    | _ => false
  let outs := if c.kind == CK_ALL_GATHER || c.kind == CK_ALL_TO_ALL then n else 1
  let ins := if c.kind == CK_ALL_TO_ALL then n else 1
  let alike (i j : Nat) : Bool :=
    let x := s.operandAt (dbase + 64 * (c.srcOp + i))
    let y := s.operandAt (dbase + 64 * (c.dstOp + j))
    x.fmtField == y.fmtField && x.rows == y.rows && x.inner == y.inner && x.maskEn == y.maskEn && x.zmapEn == y.zmapEn
  let experts := expertCount (s.routeDescs { coll := 0, desc := v, dbase := dbase, step := 0 } c)
  let ix (b k : Nat) (hi lo : Nat) : Chk := named d hi lo (setFld v hi lo (b + k)) dbase op
  let paired := !c.pairIn || (src.elem == .fp32 && src.inner % 2 == 0)
  let fits := paired && (c.kind != CK_REDUCE_SCATTER || (n != 0 && total % n == 0))
  let known := 1 ≤ c.kind && c.kind ≤ 10 && (reshard || !perm)
  let fs : List Field := [{ hi := 507, lo := 476, rule := rNull fun _ => spanOk }] ++
    (if red then ctlFields s.inDebug 412 ++ [{ hi := 411, lo := 410, rule := rDflt (· ≤ 2) 0 }] else []) ++
    Field.used { hi := 408, lo := 397, rule := rNull (· < n) } (c.kind == CK_BROADCAST) ++
    Field.used { hi := 396, lo := 349, rule := rNull fun x => aligned 4096 x && isHbm x && !isReserve x } (c.kind == CK_ALL_REDUCE || c.kind == CK_REDUCE_SCATTER) ++
    Field.used { hi := 348, lo := 301, rule := rNull fun x => aligned 8 x && (planPlace x 8 || (isHbm x && !isReserve x)) } (routed || perm) ++
    Field.used { hi := 300, lo := 253, rule := rNull fun x => aligned 8 x && s.window .move x } routed ++
    Field.used { hi := 252, lo := 205, rule := rNull fun x => aligned 32 x && s.window .move x } routed ++
    Field.used { hi := 204, lo := 157, rule := rNull fun x => aligned 64 x && isDdr x } perm ++
    Field.used { hi := 156, lo := 109, rule := rNull fun x => aligned 4096 x && isDdr x } perm ++
    Field.used { hi := 108, lo := 89, rule := rNull fun x => x ≥ 1 && (perm || x ≤ 64) } (routed || perm) ++ [{ hi := 88, lo := 0, rule := rZero }]
  if !known then .ofClamps [nullAt d 511 508 v]
  else Chk.all [.ofClamps (checkFields d v fs),
    Chk.when red (Chk.all [named d 475 460 v dbase op, named d 459 444 v dbase (s.checkOpAs reduceOut .move),
      .ofClamps (need (srcOk && !src.maskEn && (src.fmt.all fun f => !f.outlier)) d 475 460 v ++
        need paired d 409 409 v ++
        need (c.kind != CK_REDUCE_SCATTER || (n != 0 && total % n == 0)) d 475 460 v ++
        need (!fits || dst.rows * dst.inner == (if c.kind == CK_REDUCE_SCATTER then total / n else total)) d 459 444 v)]),
    Chk.when copy (Chk.all ((List.range ins).map (fun i => ix c.srcOp i 475 460) ++ (List.range outs).map (fun j => ix c.dstOp j 459 444) ++
      [.ofClamps (need ((List.range ins).all fun i => (List.range outs).all (alike i)) d 459 444 v)])),
    Chk.when routed (Chk.all [named d 475 460 v dbase op, .ofClamps (need (c.kind == CK_ROUTED_RET ||
      (src.fmt.all fun f => f.kind != .e4m3t && !f.outlier)) d 475 460 v),
      { named := [(c.place, c.place + 8 * experts), (c.home, c.home + 32 * n)] }])]

/-- The collective context and its list. -/
def checkColls (s : State) : Chk :=
  let a := s.plan.collCtx
  let v := s.nat a 32
  let c := s.collCtx
  let it : Item := { kind := 1, index := a / 32 }
  if !c.active then { clamps := checkFields it v [{ hi := 129, lo := 0, rule := rZero }], named := [(a, a + 32)] }
  else
    let ws := (List.range c.count).map fun i => s.nat (c.list + 16 * i) 16
    let rise (i : Nat) : Bool := i == 0 || (ListEntry.ofNat (ws.getD (i - 1) 0)).collId < (ListEntry.ofNat (ws.getD i 0)).collId
    Chk.all [{ clamps := checkFields it v [{ hi := 255, lo := 208, rule := rNull fun x => aligned 16 x && planPlace x 16 },
        { hi := 207, lo := 160, rule := rNull fun x => aligned 64 x && planPlace x 64 }, { hi := 159, lo := 147, rule := rSat 0 4096 },
        { hi := 145, lo := 145, rule := rZero }, { hi := 129, lo := 0, rule := rZero }], named := [(a, a + 32), (c.list, c.list + 16 * c.count)] },
      Chk.all (ws.zipIdx.map fun x =>
        let e := ListEntry.ofNat x.1
        let i := listItem 3 0xFFFF x.2
        (Chk.ofClamps (checkFields i x.1 ([{ hi := 95, lo := 64, rule := rZero }] ++ entryFields) ++ need (rise x.2) i 111 96 x.1 ++
          need (!e.sigEn || s.syncMode e.sigId == 1) i 43 28 x.1)).also (named i 127 112 x.1 c.dbase (s.checkColl c.dbase false)))]

/-! ### Sync objects (R138 to R143) -/

/-- Waits and sites of one program. -/
def progSites (s : State) (p : Prog) : List Site1 :=
  (s.progPlaces p).flatMap fun q =>
    let w : IWord := q.word
    let site (n : Nat) : Site1 := { item := progItem p q.pc, word := w, id := w.sigId, par := w.sigPar, post := isU p.ref && q.gated, amount := n * q.trips }
    let c := s.ctxAt p
    let dst := fld (s.nat (c.dbase + 64 * w.didx) 64) 447 384
    if w.opcode == OP_SADD then [site (max (fld w 127 96) 1)]
    else if w.opcode == OP_SSET then [site (fld w 127 96)]
    else if w.opcode == OP_SSPAN then (if (s.spanPiers (Handle.ofNat (fld w 127 96))).contains s.pierId then [site (fld w 95 64)] else [])
    else if !w.sigEn || (w.opcode == OP_MCOPY && w.rsig && fld dst 59 48 != s.pierId) then []
    else [site 1]

def progWaits (s : State) (p : Prog) : List Wait1 :=
  (s.progPlaces p).filterMap fun q =>
    let w : IWord := q.word
    if w.waitGE then
      some { item := progItem p q.pc, word := w, id := w.waitId, par := w.waitPar, post := isU p.ref && q.gated, value := w.waitVal + (if w.waitLoop then q.top else 0) }
    else none

/-- Entries of the trestle and collective lists, with their items. -/
def listWords (s : State) : List (Item × Nat) :=
  ((List.range 64).flatMap fun c =>
    let x := s.trestleCtx c
    if x.active then (List.range x.count).map fun i => (listItem 3 c i, s.nat (TRESTLE_JOBS + 0x4000 * c + 16 * i) 16) else []) ++
  (let c := s.collCtx
   if c.active then (List.range c.count).map fun i => (listItem 3 0xFFFF i, s.nat (c.list + 16 * i) 16) else [])

def allSites (s : State) (ps : List Prog) : List Site1 :=
  ps.flatMap s.progSites ++ s.listWords.filterMap fun x =>
    let e := ListEntry.ofNat x.2
    if e.sigEn then some { item := x.1, word := x.2, id := e.sigId, par := e.sigPar, post := false, amount := 1 } else none

def allWaits (s : State) (ps : List Prog) : List Wait1 :=
  ps.flatMap s.progWaits ++ s.listWords.filterMap fun x =>
    let e := ListEntry.ofNat x.2
    if e.waitGE then some { item := x.1, word := x.2, id := e.waitId, par := e.waitPar, post := false, value := e.waitVal } else none

/-- The object a name resolves to in a step of a parity (R139). -/
def nameAt (id : Nat) (par post : Bool) (step : Nat) : Nat := resolveId par id step (b2n post)

/-- The largest count an object can reach in a step (R143). -/
def syncBound (s : State) (sites : List Site1) (id : Nat) : Nat :=
  let sum (p : Nat) := ((sites.filter fun x => nameAt x.id x.par x.post p == id).map (·.amount)).sum
  s.syncInit id + fld (s.nat (syncAddr id) 8) 47 32 + max (sum 0) (sum 1)

/-- Modes, pairs and bounds of the objects the plan names. -/
def checkSyncs (s : State) (ps : List Prog) : List ClampRec :=
  let sites := s.allSites ps
  let waits := s.allWaits ps
  let twin (id : Nat) : Bool := s.syncMode id == s.syncMode (id ^^^ 0x8000)
  (s.plan.syncs.flatMap fun id => checkFields { kind := 1, index := syncAddr id / 16 } (s.nat (syncAddr id) 16)
    [{ hi := 63, lo := 62, rule := rDflt (· ≤ 2) 1 }, { hi := 61, lo := 61, rule := rZero }, { hi := 60, lo := 48, rule := rZero }, { hi := 31, lo := 0, rule := rZero }]) ++
  (sites.flatMap fun x => need (s.syncMode x.id == (if x.post then 2 else 1)) x.item 43 28 x.word ++ need (!x.par || twin x.id) x.item 43 28 x.word) ++
  waits.flatMap fun x =>
    need (!x.par || twin x.id) x.item 27 12 x.word ++
    need (s.syncMode x.id == 0 || ((List.range 2).all fun p => x.value ≤ s.syncBound sites (nameAt x.id x.par x.post p))) x.item 63 50 x.word

/-! ### Declarations and tables -/

/-- The page, memory and camber declarations (R186, R220, R252). -/
def checkDecls (s : State) : List ClampRec :=
  let cut (first : Nat) : ClampRule := rSat 0 (min 33554432 (s.ddrBytes / 0x10000 - first))
  let pd := s.pageDecl
  let md := s.memDecl
  let cc := s.camberCtl
  checkFields { kind := 1, index := PAGE_DECL / 32 } pd [
    { hi := 255, lo := 232, rule := rNull (· ≤ 9437183) }, { hi := 231, lo := 208, rule := rSat 0 (9437184 - fld pd 255 232) },
    { hi := 182, lo := 157, rule := cut (fld pd 207 183) }, { hi := 132, lo := 0, rule := rZero }] ++
  checkFields { kind := 1, index := MEM_DECL / 64 } md [
    { hi := 511, lo := 506, rule := rSat 0 47 }, { hi := 480, lo := 455, rule := cut (fld md 505 481) }, { hi := 429, lo := 404, rule := cut (fld md 454 430) },
    { hi := 378, lo := 353, rule := cut (fld md 403 379) }, { hi := 352, lo := 345, rule := rDflt (fun x => 1 ≤ x && x ≤ 168) 24 }, { hi := 344, lo := 0, rule := rZero }] ++
  checkFields { kind := 1, index := CAMBER_CTL / 64 } cc [
    { hi := 447, lo := 400, rule := rNull fun a => aligned 64 a && isHbm a && !isReserve a }, { hi := 399, lo := 384, rule := rSat 1 4096 },
    { hi := 383, lo := 371, rule := rSat 1 4096 }, { hi := 370, lo := 339, rule := rDflt (fun x => x == 0 || posFinite (BitVec.ofNat 32 x)) 0 },
    { hi := 337, lo := 306, rule := rNull fun h => s.handleOk (Handle.ofNat h) }, { hi := 305, lo := 0, rule := rZero }]

/-- The falsework declaration and the buddy map (R410, R411). -/
def checkFalsework (s : State) : Chk :=
  let v := s.fwDecl
  let it := descItem PLAN_AREA
  if !bitOf v 312 then .ofClamps (checkFields it v [{ hi := 311, lo := 0, rule := rZero }])
  else
    let n := s.barrierPiers.length
    let map := fld v 495 448
    let bs := (List.range n).map fun l => (l, s.nat (map + 2 * l) 2)
    let ok := bs.all fun x => x.2 == 0xFFFF || (x.2 != x.1 && bs.all fun y => y.1 == x.1 || y.2 != x.2)
    let ex := fld v 367 320
    let cnt := min (fld v 319 313) 64
    { clamps := checkFields it v [{ hi := 511, lo := 496, rule := rDflt (· ≥ 1) 100 },
        { hi := 495, lo := 448, rule := rNull fun a => aligned 8 a && planPlace a 4096 && ok },
        { hi := 447, lo := 400, rule := rNull fun a => aligned 8 a && s.window .host a },
        { hi := 367, lo := 320, rule := rNull fun a => cnt == 0 || (aligned 16 a && planPlace a (16 * cnt)) },
        { hi := 319, lo := 313, rule := rSat 0 64 }, { hi := 311, lo := 0, rule := rZero }]
      named := [(PLAN_AREA, PLAN_AREA + 64), (map, map + 4096), (ex, ex + 16 * cnt)] }

/-- The reduced placement directory (R19). -/
def checkReduced (s : State) : Chk :=
  Chk.all ((List.range 64).map fun cs =>
    let v := s.reducedEntry cs
    let it : Item := { kind := 1, index := (REDUCED_DIR + 32 * cs) / 32 }
    let a := fld v 255 208
    if fld v 207 176 == 0 then .ofClamps (checkFields it v [{ hi := 175, lo := 0, rule := rZero }])
    else { clamps := checkFields it v [{ hi := 255, lo := 208, rule := rNull fun x => aligned 64 x && planPlace x 65536 }, { hi := 175, lo := 0, rule := rZero }],
           named := [(a, a + 65536)] })

/-- Layers named once before GATE by UP1 and once after it by UP2, each by one unit (R225). -/
def checkUnits (s : State) (ps : List Prog) : List ClampRec :=
  let us := ps.filter fun p => isU p.ref
  let uses (p : Prog) : List (Place1 × Nat) := (s.progPlaces p).filterMap fun q =>
    if q.word.opcode == OP_UP1 || q.word.opcode == OP_UP2 then some (q, (s.ctxAt p).dbase + 64 * q.word.didx) else none
  let all : List (Prog × Nat × Place1) := us.flatMap fun p => (uses p).map fun u => (p, u.2, u.1)
  all.flatMap fun x =>
    let up1 (y : Place1) := y.word.opcode == OP_UP1
    let same := all.filter fun y => y.2.1 == x.2.1
    let ok := x.2.2.trips == 1 && (up1 x.2.2 != x.2.2.gated) && (same.filter fun y => up1 y.2.2).length == 1 && (same.filter fun y => !up1 y.2.2).length == 1 &&
      same.all fun y => y.1.ref == x.1.ref
    need ok (progItem x.1 x.2.2.pc) 127 112 x.2.2.word

/-! ### Capacities (R463) -/

/-- A capacity refusal record. -/
def capRecord (s : State) (cap index needed limit : Nat) : Nat :=
  5 * 2 ^ 216 + cap * 2 ^ 208 + 1 * 2 ^ 200 + index % 2 ^ 32 * 2 ^ 168 + s.pierId % 4096 * 2 ^ 156 + needed % 2 ^ 64 * 2 ^ 92 + limit % 2 ^ 64 * 2 ^ 28

def overlaps (a b : Nat × Nat) : Bool := a.1 < b.2 && b.1 < a.2 && a.1 < a.2 && b.1 < b.2

/-- Bytes of the state and preconditioner regions a unit names (R255). -/
def unitBytes (s : State) (k : Nat) : Nat :=
  ((s.programLayers.filter (·.1 == k)).map fun x =>
    let n := s.layerOf x
    4 * n.l.pb + 64 + (if n.rule == .matrix then precondBytes n else 0)).sum

/-- Regions of HBM the plan names for use: programs, layer regions, telemetry, and the tensors of named descriptors. -/
def namedMemory (s : State) (ps : List Prog) : List (Nat × Nat) :=
  (ps.map fun p => let c := s.ctxAt p; (c.prog, c.prog + 16 * c.plen)) ++
  (s.programLayers.flatMap fun x =>
    let n := s.layerOf x
    [(n.l.stateBase, n.l.stateBase + 4 * n.l.pb + 64)] ++ (if n.rule == .matrix then [(n.l.precond, n.l.precond + precondBytes n)] else []) ++
    (([n.grad] ++ (if n.l.fwdEn then [n.fwd] else []) ++ (if n.l.bwdEn then [n.bwd] else [])).map fun o => (o.base, o.base + o.rows * o.stride))) ++
  [let a := fld s.camberCtl 447 400; (a, a + s.telSteps * (384 + 64 * s.telLayers))]

/-- Objects of stage entry a stream waits on, parity partners as one (R311). -/
def stageObjects (s : State) (p : Prog) : Nat :=
  (((s.progWaits p).map fun x => x.id % 0x8000).eraseDups.filter fun id =>
    [id, id + 0x8000].any fun i => s.syncMode i == 1 && fld (s.nat (syncAddr i) 8) 47 32 > 0).length

/-- Locations a generation's slots need (R416). -/
def fwLocations (s : State) : Nat := 2 * (4 + (s.fwShards.map fun x => cdiv x.len LOC).sum)

/-- Device areas of the DDR5 tier and the offload area, as declared. -/
def ddrAreas (s : State) : List (Nat × Nat) := [s.spillArea, s.offArea, s.fwArea, s.budArea]
def ddrCounts (s : State) : List Nat := [fld s.pageDecl 182 157, fld s.memDecl 480 455, fld s.memDecl 429 404, fld s.memDecl 378 353]

/-- The first pair of a list that overlaps. -/
def anyOverlap : List (Nat × Nat) → Bool
  | [] => false
  | x :: xs => xs.any (overlaps x) || anyOverlap xs

/-- The capacity checks, first the one that comes before the layers' address checks (R186, R255), then the rest (R258,
R311, R372, R413, R416). -/
def capacityFirst (s : State) (ps : List Prog) : Option Nat :=
  let pd := s.pageDecl
  let frames : Nat × Nat := (fld pd 255 232 * 0x10000, (fld pd 255 232 + min (fld pd 231 208) (9437184 - fld pd 255 232)) * 0x10000)
  let mem := s.namedMemory ps
  if fld pd 231 208 < fld pd 156 133 then some (s.capRecord CAP_FRAMES 0 (fld pd 156 133) (fld pd 231 208))
  else if (mem ++ [(RESERVE, HBM_END)]).any (overlaps frames) then some (s.capRecord CAP_FRAMES 0 0 0)
  else if mem.any (overlaps s.spillArea) then some (s.capRecord CAP_DDR 0 0 0)
  else ((List.range 12).find? fun k => s.unitBytes k > s.localGib * GiB).map fun k => s.capRecord CAP_STACK k (s.unitBytes k) (s.localGib * GiB)

def capacityRest (s : State) (ps : List Prog) : Option Nat :=
  let fw := s.fwLocations * LOC
  let size (a : Nat × Nat) : Nat := a.2 - a.1
  let limit := s.collCtx.vstages
  let unserved := (ps.filter fun p => !isU p.ref && !s.coreServed (coreOf p.ref)).map (coreOf ·.ref) ++
    ((List.range 64).filter fun c => (s.trestleCtx c).active && !s.clusterServed c).map (32 * ·)
  if s.ddrBytes == 0 && s.ddrCounts.any (· > 0) then some (s.capRecord CAP_DDR 0 0 0)
  else if anyOverlap s.ddrAreas then some (s.capRecord CAP_DDR 0 0 0)
  else if s.fwEnabled && s.fwShards.length > 4095 then some (s.capRecord CAP_SHARDS 0 s.fwShards.length 4095)
  else if s.fwEnabled && size s.fwArea < fw then some (s.capRecord CAP_DDR 0 fw (size s.fwArea))
  else if s.fwEnabled && (s.ownLeaf.bind s.buddyOf).isSome && size s.budArea < fw then some (s.capRecord CAP_DDR 0 fw (size s.budArea))
  else match ps.find? fun p => !isU p.ref && s.stageObjects p > limit with
    | some p => some (s.capRecord CAP_STAGES (2 * coreOf p.ref + SRef.code p.ref) (s.stageObjects p) limit)
    | none => (unserved.head?).map fun k => s.capRecord CAP_UNSERVED k 0 0

/-! ### The plan (R358) -/

/-- What checking a plan gives: its clamps, the ranges that become read-only, and the refusal where there is one. -/
structure PlanVerdict where
  clamps : List ClampRec
  readonly : List (Nat × Nat)
  refusal : Option (Nat × Nat)

def isNull (c : ClampRec) : Bool := c.clamp == CL_NULL

def checkPlan (s : State) : PlanVerdict :=
  let ps := s.baseProgs
  let idle := ((List.range 2048).flatMap fun k => s.checkIdleCtx (.f k) ++ s.checkIdleCtx (.b k)) ++ (List.range 12).flatMap fun k => s.checkIdleCtx (.u k)
  let c := Chk.all [Chk.all ((ps ++ s.altProgs).map s.checkProg), Chk.all ((List.range 64).map s.checkTrestle), s.checkColls, s.checkFalsework, s.checkReduced]
  let first := idle ++ c.clamps ++ s.checkDecls ++ s.checkUnits ps
  let syncs := s.checkSyncs ps
  let places := s.programLayers.flatMap s.layerPlaces
  let r : Option (Nat × Nat) :=
    if (first ++ syncs).any isNull then some (ST_STATE, 0)
    else match s.capacityFirst ps with
      | some v => some (ST_RESOURCE, v)
      | none =>
        if places.any isNull then some (ST_STATE, 0)
        else (s.capacityRest ps).map fun v => (ST_RESOURCE, v)
  { clamps := (first ++ syncs ++ places).eraseDups, readonly := c.named.eraseDups, refusal := r }

end State

end Sys2Proof.Machine
end

