-- ==== Sys2Proof/Machine/Admit.lean ====
section
/-! DEFINITION. Admission: the bounds of collectives and of pass 2, the refusal record, and the re-check (R246, R286,
R309, R321, R362, R363). Times are kept in units of 1/525 ns, in which every payload rate is a whole number of units a
byte. -/

namespace Sys2Proof.Machine

/-- Units in a nanosecond. -/
abbrev NS : Nat := 525
abbrev US : Nat := 525000

/-- Per-hop bound of R286 and time of a payload byte of R271, by lanes. -/
def hopTime (lanes : Nat) : Nat := NS * (if lanes ≥ 4 then 220 else if lanes == 3 then 225 else 230)
def byteTime (lanes : Nat) : Nat := if lanes ≥ 4 then 3 else if lanes == 3 then 4 else 6

/-- Governing terms and reasons of a refusal record (R362). -/
abbrev RT_ENGINE : Nat := 1
abbrev RT_COLLECTIVE : Nat := 3
abbrev RT_CAMBER : Nat := 4
abbrev RR_STEP : Nat := 1
abbrev RR_COLLECTIVE : Nat := 2
abbrev RR_UPDATE : Nat := 3
abbrev RR_OPERATOR : Nat := 4

namespace State

/-- A refusal record (R362); bounds in µs. -/
def refusalRecord (s : State) (reason term index bound declared : Nat) : Nat :=
  reason * 2 ^ 216 + term * 2 ^ 208 + 1 * 2 ^ 200 + index % 2 ^ 32 * 2 ^ 168 + s.pierId % 4096 * 2 ^ 156 + hold32 bound * 2 ^ 124 + declared % 2 ^ 32 * 2 ^ 92

/-! ### Collectives (R309) -/

/-- The narrowest width of any port that is UP in the system, in lanes. -/
def narrowest (s : State) : Nat :=
  let ws := (s.net.maps.flatMap (·.links)).filterMap fun v => if fld v 44 42 == PortState.up.code then some (fld v 41 39) else none
  let own := (allPorts.filter s.portUp).map fun p => (s.port p).width
  (ws ++ own).foldl min 4

/-- Hops between two leaves by their coordinates (R283). -/
def hopsBetween (s : State) (a b : Nat × Nat × Nat) : Nat :=
  let d (n x y : Nat) : Nat := let k := if x ≤ y then y - x else x - y; if s.net.chain then k else min k (n - k)
  d s.net.ex a.1 b.1 + d s.net.ey a.2.1 b.2.1 + d s.net.ez a.2.2 b.2.2

/-- Every ordered pair of different leaves' hop counts. -/
def pairHops (s : State) (g : CollGeo) : List Nat :=
  g.coords.zipIdx.flatMap fun a => g.coords.zipIdx.filterMap fun b => if a.2 == b.2 then none else some (s.hopsBetween a.1 b.1)

/-- The all-to-all bound. -/
def a2aBound (s : State) (bytes : Nat) (hs : List Nat) (rounds : Nat) : Nat :=
  let w := s.narrowest
  let n := max hs.length 1
  let hmax := hs.foldl max 0
  5 * US + rounds * (250 * NS + hmax * hopTime w) + cdiv (bytes * byteTime w * hs.sum) (12 * n)

/-- Bytes of one element on a hop, and on the narrow first hop. -/
def hopBits (s : State) (r : CollRun) (d : CollDesc) (first : Bool) : Nat :=
  if first then (if d.pairIn then 64 else (s.collOp r d.srcOp).elem.bits) else if d.hop == 0 then 12 else if d.hop == 1 then 32 else 64

/-- Bytes of a stored operand's rows. -/
def opBytes (o : OpDesc) : Nat := o.rows * max o.stride (packedRow o.fmt o.maskEn o.inner)

/-- The bound of one collective, in units. -/
def collBound (s : State) (r : CollRun) : Nat :=
  let d := CollDesc.ofNat r.desc
  let g := s.collGeo d
  let w := s.narrowest
  let n := g.n
  let total := s.collN r d
  let hs := s.pairHops g
  let strand := cdiv total 4
  let msg (elems bits hops : Nat) : Nat := cdiv (elems * bits) 8 + 8 * hops
  if d.kind == CK_ORDERED then
    let h := ((g.coords.zip (g.coords.drop 1)).map fun x => s.hopsBetween x.1 x.2).foldl max 0
    let b := max (msg strand (s.hopBits r d true) 1) (msg strand (s.hopBits r d false) 1)
    7 * US + (n - 1) * (250 * NS + h * hopTime w) + b * byteTime w + s.a2aBound (total * (s.collOp r d.dstOp).elem.bits / 8 * (n - 1)) hs 2
  else if d.kind == CK_ALL_REDUCE || d.kind == CK_REDUCE_SCATTER then
    let phase (f : Nat) (gather : Bool) : Nat :=
      let ring := g.ring f g.me
      let nf := ring.length
      let before := ((List.range f).map fun e => (g.ring e g.me).length).foldl (· * ·) 1
      let h := ((ring.zip (ring.drop 1 ++ ring.take 1)).map fun x => s.hopsBetween (g.coords.getD x.1 (0, 0, 0)) (g.coords.getD x.2 (0, 0, 0))).foldl max 0
      let part := cdiv strand (max (before * nf) 1)
      let bits := if gather then (s.collOp r d.dstOp).elem.bits else s.hopBits r d false
      let b := msg (part * (nf - 1)) bits (nf - 1) - (if !gather && f == 0 then (msg part bits 0) - (msg part (s.hopBits r d true) 0) else 0)
      (nf - 1) * (250 * NS + h * hopTime w) + b * byteTime w
    let fs := List.range g.phases.length
    5 * US + 2 * US * (fs.length * (if d.kind == CK_ALL_REDUCE then 2 else 1)) + (fs.map fun f => phase f false).sum +
      (if d.kind == CK_ALL_REDUCE then (fs.map fun f => phase f true).sum else 0)
  else if d.kind ≤ 6 then
    let b := opBytes (s.collOp r d.srcOp)
    s.a2aBound (if d.kind == CK_BROADCAST then b * (n - 1) else b * (n - 1)) hs 2
  else
    let rows := ((s.routeDescs r d).map fun x => (x.ntok) * (x.k)).sum
    s.a2aBound (rows * (s.collOp r d.srcOp).stride) hs (if d.kind == CK_ROUTED_FWD then 3 else 2)

/-! ### Pass 2 (R246) -/

/-- ACLK cycles bounding UP2 of a layer: its time by positions or by bytes at 512 GB/s, the larger. -/
def up2Bound (n : LayerNames) : Nat :=
  let x := n.l.rows * n.l.cols
  let copyBits (o : OpDesc) (en : Bool) : Nat :=
    if !en then 0 else match o.fmt with | some f => 1024 * f.elem.bits + (if f.kind == .none then 0 else 8 * 1024 / f.block) | none => 0
  let g := 1024 * n.grad.elem.bits
  let bits := (if n.rule == .momentum then 1024 * 96 else 1024 * 128) + g + copyBits n.fwd n.l.fwdEn + copyBits n.bwd n.l.bwdEn
  let sides := if n.rule == .matrix then b2n n.e.left + b2n n.e.right else 0
  let blocks := if n.rule == .matrix then (precondBlocks n).length else 0
  -- bytes at 512 GB/s: bits / 8192 bytes a position, 1.05 / 512 cycles a byte
  2048 + max (cdiv x 64) (cdiv (x * bits * 105) (8192 * 51200)) + sides * cdiv x 16 + 2600 * blocks

/-- Pass 2 of one unit in µs, rounded up: 1,050 ACLK cycles a microsecond. -/
def unitUpdateUs (s : State) (k : Nat) : Nat := cdiv (((s.programLayers.filter (·.1 == k)).map fun x => up2Bound (s.layerOf x)).sum) 1050

/-! ### Admission (R362) -/

/-- The first deadline a plan cannot meet, as a refusal record. -/
def admission (s : State) : Option Nat :=
  let c := s.collCtx
  let runs : List (Nat × CollRun) := if !c.active then [] else (List.range c.count).map fun i =>
    let e := ListEntry.ofNat (s.nat (c.list + 16 * i) 16)
    (e.collId, { coll := e.collId, desc := s.nat (c.dbase + 64 * e.desc) 64, dbase := c.dbase, step := 0 })
  let late := if s.plan.collUs == 0 then none else (runs.map fun x => (x.1, cdiv (s.collBound x.2) US)).find? fun x => x.2 > s.plan.collUs
  let unit := if s.plan.updateUs == 0 then none else (List.range 12).find? fun k => s.unitUpdateUs k > s.plan.updateUs
  let step := Config.stepBound s.plan.planId
  match late, unit with
  | some x, _ => some (s.refusalRecord RR_COLLECTIVE RT_COLLECTIVE x.1 x.2 s.plan.collUs)
  | none, some k => some (s.refusalRecord RR_UPDATE RT_CAMBER k (s.unitUpdateUs k) s.plan.updateUs)
  | none, none => if s.plan.stepUs != 0 && step.1 > s.plan.stepUs then some (s.refusalRecord RR_STEP step.2 0 step.1 s.plan.stepUs) else none

/-- Admission again, after a lane drop or an epoch change: a deadline that cannot be met is at risk (R363). -/
def readmit (s : State) : State :=
  if !s.plan.loaded then s
  else match s.admission with
    | some v => ({ s with host := { s.host with risk := true } }).event ST_DONE v
    | none => { s with host := { s.host with risk := false } }

end State

end Sys2Proof.Machine
end

