-- ==== Sys2Proof/Machine/PlanLoad.lean ====
section
/-! DEFINITION. Loading, updating and unloading a plan: the load record, its sections, and what the plan leaves in force
(R138, R253, R358, R359). -/

namespace Sys2Proof.Machine

/-- A section entry (R358). -/
structure Section where
  dst : Nat
  src : Nat
  len : Nat
  word : Nat
  /-- local address of its source in stack offsets is read under the L in force before the load -/
  index : Nat
deriving DecidableEq, Repr

/-- Whether bytes lie in a region (R349, R352). -/
def Region.holds (r : Region) (a n : Nat) : Bool := (r.base ≤ a && a + n ≤ r.base + r.len) || (r.base2 ≤ a && a + n ≤ r.base2 + r.len2)

namespace State

/-- Whether bytes lie wholly in an opened region whose permission has a bit: 1 READ, 2 WRITE (R349). -/
def opened (s : State) (perm a n : Nat) : Bool :=
  s.host.regions.any fun r => r.2.holds a n && r.2.perm &&& perm == perm

/-- Descriptor space that plan sections may write (R270). -/
def planWritten : List (Nat × Nat) := [
  (SYNC_BASE, 0x080002100000), (CTX_BASE, 0x080002120180), (TRESTLE_CTX, 0x080002130800), (TRESTLE_JOBS, 0x080002240000),
  (REDUCED_DIR, 0x080002300800), (PAGE_DECL, 0x080003004020), (COEFF, GATE_REC), (MEM_DECL, 0x080006000040), (PLAN_AREA, PLAN_AREA_END)]

def inOne (rs : List (Nat × Nat)) (a n : Nat) : Bool := rs.any fun r => r.1 ≤ a && a + n ≤ r.2

/-- Whether a section may be written at a place. -/
def sectionPlace (s : State) (a n : Nat) : Bool :=
  inOne planWritten a n || (a + n ≤ RESERVE) ||
  (DDR_BASE ≤ a && a + n ≤ DDR_BASE + s.ddrBytes && !([s.spillArea, s.fwArea, s.budArea].any (overlaps (a, a + n))))

/-- A list of section entries as stored. -/
def readSections (s : State) (a n : Nat) : List Section :=
  (List.range n).map fun i =>
    let w := s.nat (a + 16 * i) 16
    let len := fld w 31 0
    { dst := fld w 127 80, src := fld w 79 32, len := if len == 0 then 4 else min (cdiv len 4 * 4) 4294967292, word := w, index := i }

/-- Clamps of a section entry: where it is written, where it is read, and its length. -/
def sectionClamps (s : State) (ro : Bool) (x : Section) : List ClampRec :=
  checkFields { kind := 6, index := x.index } x.word [
    { hi := 127, lo := 80, rule := rNull fun a => s.sectionPlace a x.len && !(ro && (List.range (cdiv x.len 4)).any fun i => s.readOnly (a + 4 * i)) },
    { hi := 79, lo := 32, rule := rNull fun a => s.opened 1 a x.len }, { hi := 31, lo := 0, rule := rUp fun _ => x.len }]

/-- One section copied; its source is read under another L (R253). -/
def copySection (s : State) (gib : Nat) (x : Section) : State :=
  s.write x.dst (({ s with localGib := gib } : State).bytes x.src x.len)

/-- Sections copied in list order, those to descriptor space first; the L of the new declaration holds for the rest
(R253). Answers the clamps too. -/
def copySections (s : State) (xs : List Section) (switch : Bool) : State × List ClampRec :=
  let go (gib : Nat) (a : State × List ClampRec) (x : Section) : State × List ClampRec :=
    let cs := ({ a.1 with localGib := gib } : State).sectionClamps (!switch) x
    let ok := (a.1.sectionPlace x.dst x.len) && !(cs.any isNull)
    (if ok then a.1.copySection gib x else a.1, a.2 ++ cs)
  let a := (xs.filter fun x => isDesc x.dst).foldl (go s.localGib) (s, [])
  let b : State := if switch then { a.1 with localGib := min (fld a.1.memDecl 511 506) 47 } else a.1
  (xs.filter fun x => !isDesc x.dst).foldl (go s.localGib) (b, a.2)

/-- Sync objects whose entries sections write. -/
def syncsIn (xs : List Section) : List Nat :=
  (xs.flatMap fun x =>
    if SYNC_BASE ≤ x.dst && x.dst < 0x080002100000 then
      (List.range (cdiv (x.dst % 16 + x.len) 16)).map fun i => (x.dst - SYNC_BASE) / 16 + i
    else []).eraseDups

/-- Entries of sync objects a plan has written: their counts at init, their device bits clear (R138). -/
def startSyncs (s : State) (ids : List Nat) : State :=
  ids.foldl (fun t id =>
    let a := syncAddr id
    (t.setSync id (t.syncInit id)).writeNat (a + 4) 4 (setFld (setFld (t.nat (a + 4) 4) 29 29 0) 28 16 0)) s

/-- A pier map of 256 bytes (R358). -/
def pierMap (s : State) (a : Nat) : List Nat := (List.range 2048).filter fun p => bitOf (s.byte (a + p / 8)).1.toNat (p % 8)

def reports (s : State) (cs : List ClampRec) (cmd : Nat) : State := cs.foldl (fun t c => t.report c cmd) s

/-- Fields of the load record (R358). -/
def recordClamps (s : State) (a : Nat) (v : Nat) : List ClampRec :=
  checkFields { kind := 1, index := a / 64 } v [
    { hi := 511, lo := 480, rule := rNull (· ≥ 1) },
    { hi := 415, lo := 368, rule := rNull fun x => aligned 16 x && s.opened 1 x (16 * fld v 367 348) }, { hi := 367, lo := 348, rule := rNull (· ≥ 1) },
    { hi := 347, lo := 300, rule := rNull fun x => aligned 64 x && planPlace x 64 }, { hi := 299, lo := 252, rule := rNull fun x => aligned 8 x && s.opened 1 x 512 },
    { hi := 155, lo := 136, rule := rDflt (fun x => 1 ≤ x && x ≤ 600000) 60000 }, { hi := 135, lo := 124, rule := rDflt (fun x => 1 ≤ x && x ≤ 3600) 3600 },
    { hi := 58, lo := 0, rule := rZero }]

/-- The plan a load record describes, before its checks. -/
def recordPlan (s : State) (v : Nat) (xs : List Section) : PlanSt :=
  let map := fld v 299 252
  let mem := s.pierMap map
  let spare := (s.pierMap (map + 256)).filter fun p => !mem.contains p
  let hang := fld v 155 136
  let power := fld v 135 124
  { loaded := true, planId := fld v 511 480, seed := fld v 479 416, collCtx := fld v 347 300, stepUs := fld v 251 220, collUs := fld v 219 188
    updateUs := fld v 187 156, hangMs := if 1 ≤ hang && hang ≤ 600000 then hang else 60000, powerW := if 1 ≤ power && power ≤ 3600 then power else 3600
    steps := fld v 123 60, debug := bitOf v 59, members := mem, spares := spare, piers := mem ++ spare
    sections := xs.map fun x => (x.dst, x.len, (crc32c (s.data x.src x.len)))
    syncs := (s.plan.syncs ++ syncsIn xs).eraseDups }

/-- Clamps for piers set in both maps, which are taken as members. -/
def bothMaps (s : State) (map : Nat) : List ClampRec :=
  let sp := s.pierMap (map + 256)
  ((s.pierMap map).filter sp.contains).map fun p =>
    { kind := 1, clamp := CL_DEFAULT, widthM1 := 0, bitOff := 2048 + p, index := map / 512, supplied := 1 }

/-- A refused load: the L in force and the plan stand as before, and what the sections wrote stays (R253, R358). -/
def refuseLoad (s old : State) : State := { s with plan := { old.plan with syncs := s.plan.syncs }, localGib := old.localGib }

/-- PLAN_LOAD from its load record's address (R358): the state, the status and the result. -/
def planLoad (s : State) (a cmd : Nat) : State × Nat × Nat :=
  let v := s.nat a 64
  let cs := s.recordClamps a v
  if cs.any isNull then (s.reports cs cmd, ST_STATE, 0)
  else
    let xs := s.readSections (fld v 415 368) (fld v 367 348)
    let plan := s.recordPlan v xs
    let both := s.bothMaps (fld v 299 252)
    if !plan.piers.contains s.pierId then (s.reports (cs ++ both) cmd, ST_STATE, 0)
    else
      let w := s.copySections xs true
      let s1 : State := { w.1 with plan := plan }
      let s2 : State := { s1 with plan := { plan with leaf := s1.topLeaf } }
      let k := s2.checkPlan
      let bad := w.2.any isNull
      let s3 := s2.reports (cs ++ both ++ w.2 ++ (if bad then [] else k.clamps)) cmd
      if bad then (s3.refuseLoad s, ST_STATE, 0)
      else match k.refusal with
        | some (st, r) => (s3.refuseLoad s, st, r)
        | none =>
          match s2.admission with
          | some r => (s3.refuseLoad s, ST_DEADLINE, r)
          | none =>
            let sums := plan.syncs.filterMap fun id =>
              let n := (s2.allSites s2.baseProgs).filter fun x => x.post
              let sum (p : Nat) := ((n.filter fun x => nameAt x.id x.par x.post p == id).map (·.amount)).sum
              if s2.syncMode id == 2 then some (id, max (sum 0) (sum 1)) else none
            let s4 := (s3.startSyncs (syncsIn xs))
            ({ s4 with plan := { s2.plan with readonly := k.readonly, updateSums := sums } }, ST_DONE, 0)

/-- PLAN_UPDATE at its boundary (R359): a refusal restores every byte the sections overwrote. -/
def planUpdate (s : State) (a n cmd : Nat) : State × Nat × Nat :=
  let xs := s.readSections a n
  let free : State := { s with plan := { s.plan with readonly := [], loaded := false } }
  let w := free.copySections xs true
  let ids := syncsIn xs
  let s1 : State := { w.1 with plan := { s.plan with syncs := (s.plan.syncs ++ ids).eraseDups } }
  let k := s1.checkPlan
  let bad := w.2.any isNull
  let back (t : State) : State := { t with mem := s.mem, ecc := s.ecc, plan := s.plan, localGib := s.localGib }
  let s2 := s1.reports (w.2 ++ (if bad then [] else k.clamps)) cmd
  if bad then (back s2, ST_STATE, 0)
  else match k.refusal with
    | some (st, r) => (back s2, st, r)
    | none => match s1.admission with
      | some r => (back s2, ST_DEADLINE, r)
      | none => ({ s2.startSyncs ids with plan := { s1.plan with readonly := k.readonly } }, ST_DONE, 0)

end State

end Sys2Proof.Machine
end

