-- ==== Sys2Proof/Machine/Wear.lean ====
section
/-! DEFINITION. The wear log, retirements as they take effect, and memory retirement (R16, R17, R269, R382, R383). -/

namespace Sys2Proof.Machine

/-- Wear log events (R382). -/
abbrev WE_TEST_BAD : Nat := 1
abbrev WE_RETIRED : Nat := 2
abbrev WE_HBM_ROW : Nat := 3
abbrev WE_DIMM : Nat := 4
abbrev WE_TREND : Nat := 5
abbrev WE_VERSION : Nat := 6

/-- ACLK cycles of a second, and of 24 hours. -/
abbrev SECOND : Nat := 1050000000
abbrev DAY : Nat := 86400 * SECOND

/-- The kind that stands for a core's F-engine alone among retirements (R117). -/
abbrev UK_FENGINE : Nat := 0

namespace State

/-- An entry put in the log of 65,536; a full log drops its oldest TREND entry, or its oldest where none remains. -/
def wearPut (s : State) (w : WearRec) : State :=
  let l := s.fw.wear
  let full := l.length ≥ 65536
  let cut := if full then (match l.findIdx? (·.event == WE_TREND) with | some i => l.eraseIdx i | none => l.drop 1) else l
  { s with fw := { s.fw with wear := cut ++ [w], wearDropped := if full then hold32 (s.fw.wearDropped + 1) else s.fw.wearDropped } }

/-- An entry made now. -/
def wearAdd (s : State) (kind i event reason value : Nat) : State :=
  s.wearPut { kind := kind, index := i, event := event, reason := reason, start := s.fw.wearStart
              step := if s.job.running then s.job.decided else 0, value := value }

/-- A port goes down: the flits of its retry buffer and of its input buffers are lost, which sets LINK for every step in
flight (R279). -/
def portDrop (s : State) (p : Nat) : State :=
  let q := s.port p
  let mine (h : Held) : Bool := match h.src with | some x => x.1 == p | none => false
  let n := q.retry.length + (s.net.held.filter mine).length
  let s1 := { s with net := { s.net with held := s.net.held.filter fun h => !mine h } }.setPort p
    { q with state := .down, retry := [], owed := [0, 0, 0, 0], awaiting := false }
  ((s1.bump (.port p) PT_LOST n).faultInFlight FB_LINK)

/-- A port taken out of service: it goes down for good, and the route tables follow (R279, R280, R284). -/
def portRetire (s : State) (p reason : Nat) : State :=
  let s1 := s.portDrop p
  ((s1.setPort p { s1.port p with retired := true }).markRetired UK_VPORT p reason).reportLinks

/-- Lanes taken out of a port, leaving a mask: the port runs at the width left, or is retired with fewer than two; then
admission runs again (R280, R363). -/
def narrow (s : State) (p mask reason : Nat) : State :=
  let q := s.port p
  let gone := (List.range 4).filter fun i => bitOf q.lanes i && !bitOf mask i
  if gone.isEmpty then s
  else
    let s1 := gone.foldl (fun t i => ((t.markRetired UK_VLANE (4 * p + i) reason).retiredEvent UK_VLANE (4 * p + i) reason).wearAdd UK_VLANE (4 * p + i) WE_RETIRED reason 0) s
    let w := popcount 4 mask
    let s2 := (s1.setPort p { q with lanes := mask, width := if q.state == .up then w else q.width }).bump (.port p) PT_LANE_DROPS gone.length
    let s3 := if w ≥ 2 then s2 else s2.portRetire p reason
    s3.readmit

/-- A lane dropped by this end, with the handshake that drops it at the other (R280). -/
def laneDrop (s : State) (p lane reason : Nat) : State :=
  let m := (s.port p).lanes
  if !bitOf m (lane % 4) then s
  else
    let left := m - 2 ^ (lane % 4)
    let s1 := if s.portUp p then s.sendCtrlPort p (.lanes left reason) else s
    s1.narrow p left reason

/-- A unit retired as it takes effect: its marks and bindings, its event, its wear log entry, and whether the pier is
lost with it (R16, R17, R117, R405). -/
def retireNow (s : State) (x : Retire) : State × Bool :=
  if x.kind == UK_FENGINE then ((s.retireFEngine x.index).wearAdd UK_CORE x.index WE_RETIRED x.reason 0, false)
  else if x.kind == UK_VLANE then (s.laneDrop (x.index / 4) (x.index % 4) x.reason, false)
  else if !s.unitGood x.kind x.index || x.index ≥ unitCount x.kind then (s, false)
  else
    let r := s.retireOne x.kind x.index x.reason
    let s1 := (r.1.retiredEvent x.kind x.index x.reason).wearAdd x.kind x.index WE_RETIRED x.reason 0
    let s2 := if x.kind == UK_VPORT then s1.portRetire x.index x.reason else s1
    let pair := x.index != 0 && !s.unitGood UK_ABUT ((x.index - 1) / 2 * 2 + 1 + x.index % 2)
    (s2, r.2 || x.kind == UK_DMP || x.kind == UK_HBM || x.kind == UK_CAMBER || (x.kind == UK_ABUT && (x.index == 0 || pair)))

def retireAll (s : State) (xs : List Retire) : State × Bool :=
  xs.foldl (fun a x => let r := a.1.retireNow x; (r.1, a.2 || r.2)) (s, false)

/-- A unit queued for the next step boundary of a running job, or retired at once outside one. -/
def queueRetire (s : State) (x : Retire) : State × Bool :=
  if s.job.running then ({ s with gate := { s.gate with retire := s.gate.retire ++ [x] } }, false) else s.retireNow x

/-- Rows with an uncorrected unit on a unit of memory, as far as they are told apart. -/
def badRows (s : State) (kind i : Nat) : List Nat :=
  ((s.gate.rows.filter fun r => r.1 == kind && r.2.1 == i).map fun r => Config.memRow kind r.2.2.1).eraseDups

/-- Units of core or cluster memory with two uncorrected units in 24 hours. -/
def worn (s : State) (kind : Nat) : List Nat :=
  let rs := s.gate.rows.filter fun r => r.1 == kind && s.aclk - r.2.2.2 ≤ DAY
  ((rs.map (·.2.1)).eraseDups).filter fun i => (rs.filter fun r => r.2.1 == i).length ≥ 2

def logged (s : State) (kind i event value : Nat) : Bool :=
  s.fw.wear.any fun w => w.kind == kind && w.index == i && w.event == event && w.value == value && w.start == s.fw.wearStart

/-- The actions of memory retirement (R269): the state, and whether the pier is lost. -/
def memoryRetire (s : State) : State × Bool :=
  if s.gate.rows.isEmpty then (s, false)
  else
    let a := s.retireAll (((s.worn UK_CORE).map fun i => { kind := UK_CORE, index := i, reason := UR_UNCORRECTED }) ++
      (s.worn UK_CLMEM).map fun i => { kind := UK_CLMEM, index := i, reason := UR_UNCORRECTED })
    let hbm := (List.range 12).flatMap fun i => (s.badRows UK_HBM i).map fun r => (i, r)
    let s1 := hbm.foldl (fun t x => if t.logged UK_HBM x.1 WE_HBM_ROW x.2 then t else t.wearAdd UK_HBM x.1 WE_HBM_ROW UR_UNCORRECTED x.2) a.1
    let s2 := (List.range 8).foldl (fun t c =>
      if (s.badRows UK_DDR c).length ≥ 16 && !t.logged UK_DDR c WE_DIMM 0 then t.wearAdd UK_DDR c WE_DIMM UR_UNCORRECTED 0 else t) s1
    (s2, a.2 || (List.range 12).any fun i => (s.badRows UK_HBM i).length ≥ 64)

end State

end Sys2Proof.Machine
end

