-- ==== Sys2Proof/Machine/Gate.lean ====
section
/-! DEFINITION. The commit gate, step boundaries, replay and recurrence (R147, R148, R231 to R235, R245, R359, R361,
R364, R400 to R404, R412, R418, R464). -/

namespace Sys2Proof.Machine

/-- A vote record (R231); its reserved bits are 0. -/
structure VoteRec where
  step : Nat
  attempt : Nat
  leaf : Nat
  faults : Nat
  gs : Nat
  gc : Nat
deriving DecidableEq, Repr

def VoteRec.toNat (v : VoteRec) : Nat :=
  v.step % 2 ^ 64 * 2 ^ 448 + min v.attempt 255 * 2 ^ 440 + v.leaf % 4096 * 2 ^ 428 + v.faults % 256 * 2 ^ 420 + v.gs % 2 ^ 32 * 2 ^ 388 + v.gc % 2 ^ 32 * 2 ^ 356

def VoteRec.ofNat (v : Nat) : VoteRec :=
  { step := fld v 511 448, attempt := fld v 447 440, leaf := fld v 439 428, faults := fld v 427 420, gs := fld v 419 388, gc := fld v 387 356 }

/-- Outcomes of the gate (R233). -/
abbrev GO_PASS : Nat := 0
abbrev GO_SKIP : Nat := 1
abbrev GO_FAIL : Nat := 2

/-- A gate result record (R232). -/
structure GateRec where
  step : Nat
  attempt : Nat
  outcome : Nat
  faults : Nat
  gnorm : Nat
  zeta : Nat
  /-- lowest leaf that set each bit -/
  first : List Nat
deriving DecidableEq, Repr

def GateRec.toNat (g : GateRec) : Nat :=
  g.step % 2 ^ 64 * 2 ^ 448 + min g.attempt 255 * 2 ^ 440 + g.outcome % 4 * 2 ^ 438 + g.faults % 256 * 2 ^ 430 + g.gnorm % 2 ^ 32 * 2 ^ 398
    + g.zeta % 2 ^ 32 * 2 ^ 366 + ((List.range 8).map fun j => g.first.getD j 0xFFF % 4096 * 2 ^ (354 - 12 * j)).sum

def GateRec.ofNat (v : Nat) : GateRec :=
  { step := fld v 511 448, attempt := fld v 447 440, outcome := fld v 439 438, faults := fld v 437 430, gnorm := fld v 429 398, zeta := fld v 397 366
    first := (List.range 8).map fun j => fld v (365 - 12 * j) (354 - 12 * j) }

/-- Outcome of a set of fault bits (R233). -/
def gateOutcome (skipPolicy : Bool) (faults : Nat) : Nat :=
  if faults == 0 then GO_PASS else if skipPolicy && faults == 2 ^ FB_NONFINITE_G then GO_SKIP else GO_FAIL

/-- Global norm and clipping factor of a folded pair (R232). -/
def gateNorm (clip : F32) (p : F32 × F32) : F32 × F32 :=
  let g := fsqrt (resolve p)
  (g, if isZero32 clip || isZero32 g || (!isNan32 g && !flt clip g) then fOne else fdiv clip g)

/-- The result record of a step's votes, given by leaf in ascending order (R232, R233). `extra` are faults the barrier
itself sets, with the leaf they name. -/
def gateFold (clip : F32) (skipPolicy : Bool) (step attempt : Nat) (votes : List VoteRec) (extra : List (Nat × Nat)) : GateRec :=
  let n := gateNorm clip (votes.foldl (fun p v => addPair p (BitVec.ofNat 32 v.gs) (BitVec.ofNat 32 v.gc)) pair0)
  let base := (votes.map (·.faults)).foldl (· ||| ·) 0
  let f1 := if finite32 n.1 then base else base ||| 2 ^ FB_NONFINITE_G
  let f2 := (extra.map fun x => 2 ^ x.1).foldl (· ||| ·) f1
  let first := (List.range 8).map fun j =>
    match extra.find? fun x => x.1 == j with
    | some x => x.2
    | none => match votes.find? fun v => bitOf v.faults j with | some v => v.leaf | none => 0xFFF
  { step := step, attempt := attempt, outcome := gateOutcome skipPolicy f2, faults := f2, gnorm := n.1.toNat, zeta := n.2.toNat, first := first }

namespace State

/-! ### The vote (R231) -/

/-- Whether a stream leaves the vote of a step open. -/
def streamVotes (s : State) (step : Nat) (r : SRef) (t : StreamSt) : Bool :=
  !(s.ctx r).active || t.step > step || (t.step == step && (if isU r then t.ready else t.phase == .ended && t.quiet))

/-- Whether a cluster slot's trestle list of a step has completed. -/
def trestleVotes (s : State) (step c : Nat) : Bool :=
  let x := s.trestleCtx c
  let t := s.trestleOf c
  !x.active || x.count == 0 || t.step > step || (t.step == step && !t.running && t.pos ≥ x.count)

/-- A pier ready to vote for the step in flight. A hang fails the gate, so it waits for nothing more (R143, R297). -/
def voteReady (s : State) : Bool :=
  let st := s.job.decided
  s.job.running && !s.job.holds.contains 2 && !s.job.holds.contains 3 && !s.job.dropSignals && s.ownLeaf.isSome &&
  s.gate.voted != some (st, s.job.attempt) && s.job.begun.contains st &&
  (bitOf (aget s.job.faults st 0) FB_HANG ||
   (s.streams.all fun x => s.streamVotes st x.1 x.2) && ((List.range 64).all (s.trestleVotes st)) && s.collsDone st)

/-- The pier's vote pair (R230). -/
def votePair (s : State) (step : Nat) : F32 × F32 :=
  s.programLayers.foldl (fun p x =>
    match aget? s.layers x with
    | some l => if l.norm && l.step == step then addPair p l.gs l.gc else p
    | none => p) pair0

def ownVote (s : State) : VoteRec :=
  let st := s.job.decided
  let p := s.votePair st
  { step := st, attempt := s.job.attempt, leaf := s.ownLeaf.getD 0, faults := aget s.job.faults st 0, gs := p.1.toNat, gc := p.2.toNat }

/-- A vote record arrives at the lowest leaf; one of a decided step is discarded. -/
def takeVote (s : State) (rec' : Nat) : State :=
  let v := VoteRec.ofNat rec'
  if v.step < s.job.decided || !s.job.running then s
  else { s with gate := { s.gate with votes := aset s.gate.votes v.leaf rec' } }

/-- The pier votes, once, when it is ready. -/
def castVote (s : State) : State :=
  if !s.voteReady then s
  else
    let v := s.ownVote
    let s1 := if bitOf v.faults FB_POISON then s.trigger TG_POISON else s
    let s2 := { s1 with gate := { s1.gate with voted := some (v.step, s.job.attempt) } }
    if s.barrierHead == s.pierId then s2.takeVote v.toNat else s2.sendCtrl s.barrierHead (.vote v.toNat)

/-! ### The barrier (R232 to R235) -/

/-- Votes of the step and attempt in flight, ascending by leaf. -/
def votesNow (s : State) : List VoteRec :=
  (List.range s.barrierPiers.length).filterMap fun l =>
    match aget? s.gate.votes l with
    | some r => let v := VoteRec.ofNat r; if v.step == s.job.decided && v.attempt == min s.job.attempt 255 then some v else none
    | none => none

def gateClip (s : State) : F32 :=
  let c := BitVec.ofNat 32 (fld s.camberCtl 370 339)
  if posFinite c then c else 0#32
def skipPolicy (s : State) : Bool := bitOf s.camberCtl 338

/-- Multicast group of barrier_span, where it has one (R29, R234). -/
def barrierGroup (s : State) : Option Nat :=
  let h := s.barrierHandle
  if h.level == 4 && s.handleOk h then let g := (s.spanDesc h.index).mcastGroup; if 0x800 ≤ g && g ≤ 0xFFE then some g else none else none

/-- The result record sent to every pier of barrier_span. -/
def sendResult (s : State) (g : GateRec) : State :=
  let s1 := match s.barrierGroup with
    | some m => if s.barrierPiers.length > 1 then s.sendCtrl m (.result g.toNat) else s
    | none => s.tellSpan (.result g.toNat)
  let s2 := s1.sendCtrlAll s.leafless (.result g.toNat)
  { s2 with gate := { s2.gate with arrived := some g.toNat } }

/-- Every vote is in: the barrier decides (R232 to R234). -/
def gateDecide (s : State) : State :=
  let vs := s.votesNow
  if !s.job.running || s.barrierHead != s.pierId || s.gate.arrived.isSome || vs.length != s.barrierPiers.length then s
  else s.sendResult (gateFold s.gateClip s.skipPolicy s.job.decided s.job.attempt vs [])

/-! ### Retirement and restarts at a boundary (R16, R17, R117, R147) -/

/-- A stream restarts its current step after a pass: each execution whose signal was delivered runs again without it. -/
def restartSlot (s : State) (r : SRef) : State :=
  let t := s.stream r
  if !t.phase.live then s
  else
    let s1 := s.dropStream r
    s1.setStream r { t with pc := 0, phase := .ready, loops := [], gated := false, ready := false, chain := none, marks := [], inflight := []
                            muted := (t.muted ++ t.delivered).eraseDups, delivered := [] }

/-- A stream whose context came in with a reduced placement begins at the step in flight. -/
def admitStream (s : State) (r : SRef) : State :=
  if (s.ctx r).active && (aget? s.streams r).isNone then { s with streams := s.streams ++ [(r, { step := s.job.decided })] } else s

/-- Core slots whose binding, recovery mode or placement differs between two floor plans. -/
def slotsChanged (a b : FloorPlan) : List Nat :=
  ((a.coreBind ++ b.coreBind).filter (fun x => aget? a.coreBind x.1 != aget? b.coreBind x.1)).map (·.1) ++
  ((a.recovery ++ b.recovery).filter fun k => a.recovery.contains k != b.recovery.contains k) ++
  ((b.reduced.filter fun x => !a.reduced.contains x).flatMap fun x => (List.range 32).map (32 * x.1 + ·))

/-- Streams of the slots that changed restart, or, after a failed gate, have been restarted already (R147). -/
def restartChanged (s : State) (before : FloorPlan) (failed : Bool) : State :=
  let ks := (slotsChanged before s.fp).eraseDups
  let rs := ks.flatMap fun k => [SRef.f k, SRef.b k]
  let s1 := if failed then s else rs.foldl restartSlot s
  rs.foldl admitStream s1

/-- A core enters recovery mode for the test of its F-engine, where its cluster has none under test (R117, R404). -/
def recoveryEvent (s : State) (k : Nat) : State :=
  s.faultEvent { s.faultRec EV_RECOVERY_MODE with kind := UK_CORE, index := aget s.fp.coreBind k 0 }

def startTest (s : State) (k : Nat) : State :=
  { s with
    fp := { s.fp with recovery := k :: s.fp.recovery.filter (· != k) }
    gate := { s.gate with underTest := some k, testPass := none } }.recoveryEvent k

/-- The outcome of an F-engine's test takes effect (R404). -/
def endTest (s : State) : State :=
  match s.gate.underTest, s.gate.testPass with
  | some k, some true =>
    let s1 : State := { s with
      fp := { s.fp with recovery := s.fp.recovery.filter (· != k) }
      gate := { s.gate with underTest := none, testPass := none, tested := some k } }
    s1.recoveryEvent k
  | some k, some false =>
    let s1 : State := { s with gate := { s.gate with underTest := none, testPass := none } }
    (s1.retireNow { kind := UK_FENGINE, index := aget s.fp.coreBind k 0, reason := UR_RECURRED }).1.recoveryEvent k
  | _, _ => s

/-! ### Recurrence (R402, R464) -/

/-- How much a counter has grown since the attempt began. -/
def grown (s : State) (b : Bank) (i : Nat) : Nat := (((s.counter b i : Nat) : Int) - aget s.gate.ctr0 (b, i) 0).toNat

/-- A DRAIN bank's PAIR_MISMATCH, or SYNC_OVERFLOW, grew. -/
def planFault (s : State) : Bool :=
  s.grown .host HC_SYNC_OVERFLOW != 0 ||
  s.ctr.any fun c => match c.1 with | (.drain k a, 14) => s.grown (.drain k a) 14 != 0 | _ => false

/-- Ports whose lost, failing or discarded flits grew. -/
def badPorts (s : State) : List Nat :=
  allPorts.filter fun p => [PT_LOST, PT_CRC_FAIL, PT_TTL, PT_NO_ROUTE].any fun i => s.grown (.port p) i != 0

/-- What a poisoned word belongs to: state that falsework keeps, or a weight copy of a layer, or neither. -/
inductive WordClass where
  | kept | copy (layer : Nat × Nat) | other
deriving DecidableEq, Repr

/-- Bytes of a stored operand's elements, scales and masks. -/
def opRanges (o : OpDesc) : List (Nat × Nat) :=
  let nb := match o.fmt with | some f => if f.kind == .none then 0 else cdiv o.inner f.block | none => 0
  [(o.base, o.base + o.rows * o.stride), (o.bscale, o.bscale + o.rows * nb)] ++
  (if o.maskEn then [(o.maskAddr, o.maskAddr + 8 * (cdiv o.rows 8 * cdiv o.inner 8))] else [])

def wordClass (s : State) (a : Nat) : WordClass :=
  let ls := s.programLayers
  let kept (x : Nat × Nat) : Bool :=
    let n := s.layerOf x
    inRanges ((stateShard n :: precondShard n).map fun y => (y.src, y.src + y.len)) a
  if (GROUP_CTR ≤ a && a < GROUP_CTR + 0x8000) || ls.any kept then .kept
  else match ls.find? fun x =>
      let n := s.layerOf x
      (n.l.fwdEn && inRanges (opRanges n.fwd) a) || (n.l.bwdEn && inRanges (opRanges n.bwd) a) with
    | some x => .copy x
    | none => .other

/-- Class of the object a hung head waited on (R464). -/
inductive HangClass where
  | own | remote | host
deriving DecidableEq, Repr

/-- Names of a site in a step: the object its signal resolves to. -/
def siteObject (s : State) (x : Site1) : Nat := nameAt x.id x.par x.post s.job.decided

def hangClass (s : State) (obj : Option Nat) : HangClass :=
  match obj with
  | none => .own
  | some id =>
    if s.syncMode id == 0 then .host
    else if fld (s.nat (syncAddr id) 8) 47 32 != 0 || (s.allSites []).any (fun x => x.item.ctx == 3 * 65536 + 0xFFFF && s.siteObject x == id) then .remote
    else .own

/-- Whether an instruction of a stream's program has not completed all its runs in the step in flight. -/
def unfinished (s : State) (r : SRef) (pc : Nat) : Bool :=
  let t := s.stream r
  let st := s.job.decided
  t.step < st || (t.step == st && !(t.phase == .ended && t.quiet) &&
    (pc ≥ t.pc || t.inflight.any (fun x => x.pc == pc && !x.completed) || t.loops.any fun l => l.start < pc && l.idx + 1 < l.count))

/-- Stream of a checked item, where it is a stream's. -/
def itemStream (it : Item) : Option SRef :=
  match it.ctx / 65536 with
  | 0 => some (.f (it.ctx % 65536)) | 1 => some (.b (it.ctx % 65536)) | 2 => some (.u (it.ctx % 65536)) | _ => none

/-- The units that hold an unfinished site of an object: core slots, ascending, and whether a U-stream is among them. -/
def siteUnits (s : State) (id : Nat) : List Nat × Bool :=
  let xs := (s.allSites s.baseProgs).filter fun x => s.siteObject x == id
  let cores := xs.filterMap fun x =>
    match itemStream x.item with
    | some (.f k) => if s.unfinished (.f k) x.item.index then some k else none
    | some (.b k) => if s.unfinished (.b k) x.item.index then some k else none
    | some (.u _) => none
    | none => if x.item.ctx % 65536 < 64 && !s.trestleVotes s.job.decided (x.item.ctx % 65536) then some (32 * (x.item.ctx % 65536)) else none
  (cores, xs.any fun x => match itemStream x.item with | some (.u k) => s.unfinished (.u k) x.item.index | _ => false)

/-- Whether this pier holds an unfinished copy that signals an object on a pier, or an open collective of those
named (R464). -/
def withholds (s : State) (pier id : Nat) (colls : List Nat) : Bool :=
  (s.baseProgs.any fun p => (s.progPlaces p).any fun q =>
    let w : IWord := q.word
    let dst := fld (s.nat ((s.ctxAt p).dbase + 64 * w.didx) 64) 447 384
    w.opcode == OP_MCOPY && w.rsig && fld dst 59 48 == pier && nameAt w.sigId w.sigPar (isU p.ref && q.gated) s.job.decided == id && s.unfinished p.ref q.pc) ||
  colls.any fun c => s.coll.runs.any (·.coll == c) ||
    (!s.collsDone s.job.decided && (List.range s.collCtx.count).any fun i => i ≥ s.coll.pos && (ListEntry.ofNat (s.nat (s.collCtx.list + 16 * i) 16)).collId == c)

/-- Collectives whose entries signal an object. -/
def collsOf (s : State) (id : Nat) : List Nat :=
  if !s.collCtx.active then [] else
  (List.range s.collCtx.count).filterMap fun i =>
    let e := ListEntry.ofNat (s.nat (s.collCtx.list + 16 * i) 16)
    if e.sigEn && resolveId e.sigPar e.sigId s.job.decided 0 == id then some e.collId else none

/-- The core of a slot is retired, or, where its last failing instruction was an F-stream tile on its F-engine and no
test has passed since, its F-engine goes to a test (R404). -/
def actOnCore (s : State) (k : Nat) (ftile : Bool) : State :=
  let busy := match s.gate.underTest with | some j => j / 32 == k / 32 | none => false
  if ftile && s.gate.tested != some k && !busy && !s.fp.recovery.contains k then s.startTest k
  else { s with gate := { s.gate with retire := s.gate.retire ++ [{ kind := UK_CORE, index := aget s.fp.coreBind k 0, reason := UR_RECURRED }] } }

/-- The pier that withheld a signal is known once every pier has answered: the lowest leaf that holds the missing site, or
the pier that waited. -/
def settleHang (s : State) : State :=
  match s.gate.hangAsk with
  | none => s
  | some as =>
    if !s.barrierPiers.all (fun p => as.any (·.1 == p)) then s
    else
      let p := (s.barrierPiers.find? fun p => as.any fun a => a.1 == p && a.2).getD s.pierId
      ({ s with gate := { s.gate with hangAsk := none }, job := { s.job with holds := s.job.holds.filter (· != 5) } }).declareLost p

/-- A snapshot for another pier's question about a hang, and the answer (R436, R464). -/
def answerHang (s : State) (pier id : Nat) (colls : List Nat) : State :=
  let s1 := if s.trace.snapHeld then s.bump .obsPier OB_SKIPPED else s.snapshot none true
  s1.sendCtrl pier (.hangAnswer s.pierId (s.withholds pier id colls))

/-- What a recurring HANG leads to on the pier that waited. -/
def actOnHang (s : State) : State :=
  match s.gate.hung with
  | none => s
  | some (r, obj) =>
    match s.hangClass obj with
    | .host => s.stopJob ST_UNRECOVERABLE
    | .remote =>
      let id := obj.getD 0
      let cs := s.collsOf id
      let s1 : State := { s with
        gate := { s.gate with hangAsk := some [(s.pierId, s.withholds s.pierId id cs)] }
        job := { s.job with holds := 5 :: s.job.holds.filter (· != 5) } }
      (s1.tellSpan (.hangQuery s.pierId id cs)).settleHang
    | .own =>
      let u : List Nat × Bool := match obj with | some id => s.siteUnits id | none => ([], false)
      match maxOf (u.1.map fun k => 4096 - k), u.2, r with
      | some m, _, _ => s.actOnCore (4096 - m) false
      | none, true, _ => s.declareLost s.pierId
      | none, false, .u _ => s.declareLost s.pierId
      | none, false, .f k => s.actOnCore k false
      | none, false, .b k => s.actOnCore k false

/-- What a recurring POISON leads to on the pier it is located on. -/
def actOnPoison (s : State) : State :=
  match s.gate.firstRead with
  | some a =>
    match s.wordClass a with
    | .kept => s.askRecovery
    | .copy x => (s.copyLayer (s.layerOf x)).1
    | .other => s.stopJob ST_UNRECOVERABLE
  | none =>
    if s.planFault then s.stopJob ST_UNRECOVERABLE
    else match s.gate.writer with
      | some (k, i, f) =>
        if k == UK_CORE then match s.slotOfCore i with | some c => s.actOnCore c f | none => s
        else { s with gate := { s.gate with retire := s.gate.retire ++ [{ kind := k, index := i, reason := UR_RECURRED }] } }
      | none => s

/-- What the recurring fault bits of a failed attempt lead to here (R402). The pier at a bit's first leaf acts on it. -/
def actOnBit (s : State) (now before : GateRec) (bit : Nat) : State :=
  if !s.job.running || !bitOf now.faults bit || !bitOf before.faults bit || now.first.getD bit 0xFFF != before.first.getD bit 0xFFF then s
  else
    let mine := some (now.first.getD bit 0xFFF) == s.ownLeaf
    if bit == FB_NONFINITE_G || bit == FB_NONFINITE_W then
      if now.gnorm == before.gnorm && now.faults == before.faults then s.stopJob ST_UNRECOVERABLE else s
    else if !mine then s
    else if bit == FB_POISON then s.actOnPoison
    else if bit == FB_LINK then s.badPorts.foldl (fun t p => (t.retireNow { kind := UK_VPORT, index := p, reason := UR_RECURRED }).1) s
    else if bit == FB_CHECKSUM then
      match s.gate.badEngine with | some e => (s.retireNow { kind := UK_REDUCE, index := e, reason := UR_RECURRED }).1 | none => s
    else if bit == FB_HANG then s.actOnHang
    else s

/-- What a failed attempt leads to beside its replay (R402, R403). -/
def escalate (s : State) (g : GateRec) : State :=
  if s.gate.sigFail then s.stopJob ST_UNRECOVERABLE
  else if g.attempt ≥ 7 then
    if s.gate.returned == some g.step then s.stopJob ST_UNRECOVERABLE
    else { s with gate := { s.gate with returned := some g.step } }.returnToFalsework
  else match s.gate.lastFail with
    | some r =>
      let b := GateRec.ofNat r
      if b.step == g.step && b.attempt + 1 == g.attempt then (List.range 7).foldl (fun t i => t.actOnBit g b i) s else s
    | none => s

/-! ### Telemetry (R245) -/

/-- The banks of a site kind, 0 DRAIN to 4 CAMBER. -/
def siteKind : Bank → Option Nat
  | .drain _ _ => some 0 | .atrest _ => some 1 | .wire _ => some 2 | .link _ => some 3 | .camberConv _ => some 4 | _ => none

/-- The site delta block of the committing attempt. -/
def siteDeltas (s : State) : List Byte :=
  let ks := s.ctr.map (·.1)
  (List.range 5).flatMap fun k => (List.range 16).flatMap fun w =>
    let ds := (ks.filter fun x => siteKind x.1 == some k && x.2 == w).map fun x => if w == 15 then s.counter x.1 15 else s.grown x.1 w
    natLE 4 (if w == 15 then ds.foldl (· ||| ·) 0 else hold32 ds.sum)

/-- The step header is final once every UP2 of the step has completed. -/
def telComplete (s : State) (step : Nat) : State :=
  let a := s.telRecord step
  if fld (s.nat a 64) 511 448 == step && s.programLayers.all (s.up2Done step) then s.setRec a [(352, 352, 1)] else s

/-- The step header and site delta block written at the gate. -/
def telHeader (s : State) (g : GateRec) : State :=
  let a := s.telRecord g.step
  let v := g.step % 2 ^ 64 * 2 ^ 448 + min (g.attempt + 1) 255 * 2 ^ 440 + g.outcome * 2 ^ 438 + s.gate.failFaults * 2 ^ 430 + g.gnorm * 2 ^ 398
    + g.zeta * 2 ^ 366 + min s.programLayers.length 4096 * 2 ^ 353
  ((s.writeNat a 64 v).writeData (a + 64) s.siteDeltas).telComplete g.step

/-! ### Commit -/

/-- Groups whose coefficient entry is active; only entries with some byte listed can be. -/
def activeGroups (s : State) : List Nat :=
  (((s.mem ++ s.ecc).filter fun c => COEFF ≤ c.1 && c.1 < COEFF + 0x40000).map fun c => (c.1 - COEFF) / 64).eraseDups.filter fun g => bitOf (s.nat (COEFF + 64 * g) 64) 275

/-- Group counters advance (R222). -/
def countGroups (s : State) : State :=
  s.activeGroups.foldl (fun t g =>
    let v := t.nat (GROUP_CTR + 8 * g) 8
    if v ≥ 2 ^ 64 - 1 then t.bump .gate GC_HOLD else t.writeNat (GROUP_CTR + 8 * g) 8 (v + 1)) s

/-- Readiness for a due generation is known of every pier: it starts, or is postponed (R412). -/
def settleReady (s : State) : State :=
  match s.falsework.asked with
  | none => s
  | some st =>
    let rs := s.falsework.ready.filter (·.2.1 == st)
    if !s.barrierPiers.all (fun p => rs.any (·.1 == p)) then s
    else
      let s1 := { s with falsework := { s.falsework with asked := none, ready := s.falsework.ready.filter (·.2.1 != st) } }
      if rs.all (·.2.2) then s1.startGeneration st else s1.bump .hiding FH_POSTPONED

/-- A committed step counts toward the next generation; in a due one, readiness is exchanged (R410, R412). While a
dispute is settled, the disputed step alone is due (R418). -/
def fwCommit (s : State) (step : Nat) : State :=
  if !s.fwEnabled then s
  else
    let pos := (s.nat s.dataAddr 8 + fld s.fwDecl 399 368) % 2 ^ 64
    let s1 := s.writeNat s.dataAddr 8 pos
    let n := s.falsework.count + 1
    let due := match s.falsework.dispute with | some d => d.1 == step | none => s.falsework.due || n ≥ s.fwInterval
    let s2 := { s1 with falsework := { s1.falsework with count := n, due := due || s1.falsework.due } }
    if !due || s.ownLeaf.isNone then s2
    else
      let ok := s.falsework.run.isNone
      let s3 := { s2 with falsework := { s2.falsework with asked := some step, ready := s2.falsework.ready ++ [(s.pierId, step, ok)] } }
      (s3.tellSpan (.fwReady s.pierId step ok)).settleReady

/-- The step is committed (R222, R233, R140, R245, R410). -/
def commitStep (s : State) (g : GateRec) : State :=
  let s1 := if g.outcome == GO_PASS then (s.bump .gate GC_PASS).countGroups else s.bump .gate GC_SKIP
  let s2 := s1.syncReset 2 fun id => id / 0x8000 == (g.step + 1) % 2
  let late := s.plan.stepUs != 0 && s.aclk - s.job.stepAt > s.plan.stepUs * 1050
  let s3 := (if late then s2.bump .host HC_STEP_LATE else s2).telHeader g
  let s4 : State := { s3 with
    job := { s3.job with decided := g.step + 1, attempt := 0, lastSkip := g.outcome == GO_SKIP, stepAt := s.aclk
                         faults := s3.job.faults.filter (·.1 > g.step), begun := s3.job.begun.filter (· ≥ g.step) }
    gate := { s3.gate with lastFail := none, failFaults := 0, votes := s3.gate.votes.filter fun v => (VoteRec.ofNat v.2).step > g.step } }
  s4.fwCommit g.step

/-- The step is discarded, and its next attempt begins (R148, R233, R400). -/
def discardStep (s : State) (g : GateRec) : State :=
  let s1 := ((s.bump .gate GC_FAIL).bump .hiding FH_REPLAYS).trigger TG_GATE_FAIL
  let s2 := (s1.faultEvent { s1.faultRec EV_REPLAYED with step := g.step, attempt := g.attempt, faults := g.faults }).escalate g
  if !s2.job.running then s2
  else
    let s3 := (s2.restartStreams g.step false).collDiscard g.step
    { s3 with
      job := { s3.job with attempt := s.job.attempt + 1, faults := s3.job.faults.filter (·.1 < g.step), begun := s3.job.begun.filter (· < g.step)
                           dropSignals := true }
      gate := { s3.gate with lastFail := some g.toNat, failFaults := g.faults } }.beginChange

/-! ### The boundary -/

/-- A job that ends: its streams are held until pass 2 of the last committed step has completed (R360, R364). -/
def settleJob (s : State) : State :=
  match s.job.ending with
  | some st =>
    if s.job.running && s.passDone (s.job.decided - 1) then (if st == ST_ABORTED then (s.tellOwned (.jobStop st)).endJob st else s.endJob st) else s
  | none => s

/-- The last step has committed, or an abort has reached its stop point. -/
def jobBoundary (s : State) (failed : Bool) : State :=
  if s.gate.abort && failed then (s.tellOwned (.jobStop ST_ABORTED)).endJob ST_ABORTED
  else
    let over' := s.job.steps != 0 && s.job.decided ≥ s.job.startStep + s.job.steps
    let st : Option Nat := if s.gate.abort then some ST_ABORTED else if over' then some ST_DONE else none
    match st with
    | some c => { s with job := { s.job with ending := some c, holds := 4 :: s.job.holds.filter (· != 4) } }.settleJob
    | none => s

/-- New sequencer microcode takes over, and every F- and B-stream restarts its step (R380). -/
def swapMicrocode (s : State) (failed : Bool) : State :=
  match s.fw.replace with
  | some x =>
    if x.image.cls != 6 then s
    else
      let rs := (s.streams.map (·.1)).filter fun r => !isU r
      let s1 := if failed then s else rs.foldl restartSlot s
      { s1 with fw := { s1.fw with replace := none, versions := aset s1.fw.versions (6, 0) x.image.version } }.finish x.cmdId ST_DONE
  | none => s

/-- Plan updates accepted take effect in the order of their acceptance (R359). -/
def updateBoundary (s : State) : State :=
  s.gate.update.foldl (fun t u =>
    let r := t.planUpdate u.2.1 u.2.2 u.1
    r.1.finish u.1 r.2.1 r.2.2) { s with gate := { s.gate with update := [] } }

/-- Piers assigned to the job join as spares (R361). -/
def assignBoundary (s : State) : State :=
  s.gate.assign.foldl (fun t x =>
    ({ t with plan := { t.plan with spares := t.plan.spares.filter (· != x.2) ++ [x.2], piers := t.plan.piers.filter (· != x.2) ++ [x.2] } }).finish x.1 ST_DONE)
    { s with gate := { s.gate with assign := [] } }

/-- Changes of binding that take effect at a boundary: retirements, memory retirement, an F-engine's test (R16, R17,
R117, R269, R404), and the restarts they bring. -/
def bindBoundary (s : State) (failed : Bool) : State :=
  let cores := (s.gate.retire.filter (·.kind == UK_CORE)).mergeSort fun a b => a.index ≤ b.index
  let rest := s.gate.retire.filter fun x => x.kind != UK_CORE
  let s0 : State := { s with gate := { s.gate with retire := [] } }
  let a := s0.retireAll (cores ++ rest)
  let b := a.1.memoryRetire
  let s1 := b.1.endTest.restartChanged s.fp failed
  if a.2 || b.2 then s1.declareLost s1.pierId else s1

/-- At a boundary at which the gate passes or skips, operators that wait for one are due, and the next step's F- and
B-streams are held at GATE until they complete (R321). -/
def opBoundary (s : State) (failed : Bool) : State :=
  if failed || s.host.ops.all (fun x => x.due) then s
  else { s with host := { s.host with ops := s.host.ops.map fun x => { x with due := true } }, job := { s.job with holds := 1 :: s.job.holds.filter (· != 1) } }

/-- What the next attempt starts from: counters as it finds them, and nothing noted of poison or faults. -/
def openAttempt (s : State) : State :=
  { s with gate := { s.gate with ctr0 := s.ctr.map fun c => (c.1, ((c.2 : Nat) : Int)), wrote := [], firstRead := none, writer := none, hung := none,
                                 sigFail := false, badEngine := none } }

/-- The result record of the attempt in flight takes effect on this pier (R147, R234): the record and its trace, the
commit or the discard, then everything that waits for a boundary; streams pass GATE last. -/
def applyResult (s : State) : State :=
  match s.gate.arrived with
  | none => s
  | some v =>
    let g := GateRec.ofNat v
    let here : State := { s with gate := { s.gate with arrived := none } }
    -- a pier without a leaf follows the steps of those that hold one
    let s0 : State := if s.ownLeaf.isSome then here else { here with job := { here.job with decided := g.step, attempt := g.attempt } }
    if !s.job.running || g.step != s0.job.decided || g.attempt != min s0.job.attempt 255 then s0
    else
      let failed := g.outcome ≥ GO_FAIL
      let s1 := (s0.writeNat GATE_REC 64 v).traceDevice TR_GATE g.step (g.outcome * 2 ^ 30 + g.faults * 2 ^ 22) (g.gnorm * 2 ^ 64)
      let s2 := if failed then s1.discardStep g else s1.commitStep g
      if !s2.job.running then s2
      else
        let s3 := ((s2.bindBoundary failed).swapMicrocode failed).updateBoundary.assignBoundary.slotBoundary.opBoundary failed
        let s4 := if s3.job.needRecovery then s3.askRecovery else s3
        let s5 := if s4.net.change == .wanted then s4.beginChange else s4
        (s5.jobBoundary failed).openAttempt.passGates

/-- A vote has not come within the hang interval: the barrier fails the attempt with UNIT, and the pier at the lowest
missing leaf is lost (R235, R405). -/
def voteTimeout (s : State) : State :=
  let vs := s.votesNow
  let missing := (List.range s.barrierPiers.length).filter fun l => !vs.any (·.leaf == l)
  match missing.head? with
  | none => s
  | some l =>
    if !s.job.running || s.barrierHead != s.pierId || s.gate.arrived.isSome || vs.isEmpty then s
    else
      let s1 := s.sendResult (gateFold s.gateClip s.skipPolicy s.job.decided s.job.attempt vs [(FB_UNIT, l)])
      s1.declareLost (s1.barrierPiers.getD l s1.pierId)

/-! ### Hangs (R143) -/

/-- A stream's head has waited past the hang interval: the snapshot, the HANG trigger, and HANG for the step. -/
def hangExpiry (s : State) (r : SRef) : State :=
  let t := s.stream r
  let waits := t.phase == .waitSync || t.phase == .waitEngine || t.phase == .waitFence
  if !s.job.running || !waits then s
  else
    let obj := (s.headWait r).map (·.1)
    let s1 := ((s.hangSnapshot r).trigger TG_HANG).fault t.step FB_HANG
    { s1 with gate := { s1.gate with hung := match s.gate.hung with | some h => some h | none => some (r, obj) } }

end State

end Sys2Proof.Machine
end

