-- ==== Sys2Proof/Machine/Generation.lean ====
section
/-! DEFINITION. Writing a generation out: its local copy, its buddy copy shard by shard, and the hold on pass 2 (R412 to
R415, R418, R419). -/

namespace Sys2Proof.Machine

namespace State

/-- Shards of two digest lists that disagree. -/
def disagreeing (a b : List Nat) : List Nat :=
  (List.range (max a.length b.length)).filter fun i => a[i]? != b[i]?

/-- The recomputed digests of a disputed step settle the dispute on this pier (R418). -/
def settleDispute (s : State) (step : Nat) (mine : List Nat) : State :=
  match s.falsework.dispute with
  | none => s
  | some (d, own, bud) =>
    if d != step then s
    else
      let s1 := { s with falsework := { s.falsework with dispute := none } }
      if own.isEmpty && bud.isEmpty then s1
      else if mine == own || mine == bud then
        s1.faultEvent { s1.faultRec EV_GEN_DISCARDED with step := step }
      else
        let bad := (disagreeing mine own).take 64
        let s2 := bad.zipIdx.foldl (fun t x =>
          t.faultEvent { t.faultRec EV_DIVERGENCE with step := step, index := x.1, value := if x.2 + 1 == bad.length then bad.length else step }) s1
        s2.stopJob ST_DIVERGENCE

/-- The local copy of the generation in progress is whole: the layers whose UP2 has completed are read, and once none is
left the header is written with complete = 1 and the buddy copy starts. -/
def localWritten (s : State) : State :=
  match s.falsework.run with
  | none => s
  | some g0 =>
    if g0.localDone then s
    else
      let s1 := g0.unread.foldl readLayer s
      match s1.falsework.run with
      | none => s1
      | some g =>
        if !g.unread.isEmpty then s1
        else
          let h : GenHeader := { planId := s.plan.planId, step := g.step, seed := s.plan.seed, dataPos := g.dataPos, gen := g.gen, leaf := s.ownLeaf.getD 0
                                 shards := s.fwShards.length, complete := true, buddy := false }
          let s2 := (s1.putHeader (s1.fwSlot g.gen) h).bump .hiding FH_GENERATIONS
          let s3 : State := { s2 with falsework := { s2.falsework with run := some { g with localDone := true } } }
          ((s3.sendBuddy g).settleDispute g.step (s3.slotDigests (s3.fwSlot g.gen))).settleGeneration

/-- A generation taken at once from the present state, outside a job (R419). -/
def takeNow (s : State) (step : Nat) : State :=
  let s1 := s.startGeneration step
  match s1.falsework.run with
  | some g =>
    let s2 := s1.copyShards (s1.fwSlot g.gen) fun _ => true
    { s2 with falsework := { s2.falsework with run := some { g with unread := [] } } }.localWritten
  | none => s1

/-! ### The buddy's side (R415) -/

/-- The slot of the buddy area that a copy is landing in: begun and not complete, the later generation of the two. -/
def landingSlot (s : State) : Option Nat :=
  let ok (b : Nat) : Bool := let v := s.nat b 64; let h := GenHeader.ofNat v; fld v 511 480 == FW_MAGIC && h.buddy && !h.complete
  let bs := ([0, 1].map s.budSlot).filter ok
  bs.foldl (fun m b => match m with
    | some x => if (s.genHeader x).gen < (s.genHeader b).gen then some b else some x
    | none => some b) none

/-- The pier whose buddy this pier is. -/
def copyOwner (s : State) : Option Nat := (s.ownLeaf.bind s.buddyOf).bind fun l => s.barrierPiers[l]?

def toOwner (s : State) (m : CtrlMsg) : State := match s.copyOwner with | some p => s.sendCtrl p m | none => s

/-- A shard of a buddy copy has landed: it is checked, asked for again up to three times, and the last one completes the
copy. -/
def buddyShard (s : State) (i : Nat) : State :=
  match s.landingSlot with
  | none => s
  | some b =>
    let h := s.genHeader b
    if i ≥ h.shards || s.falsework.landed.contains (b, i) then s
    else
      let e := s.nat (b + 64 + 64 * i) 64
      let f := s.falsework
      if beNat (sha256 (s.data (b + fld e 415 392 * LOC) (fld e 455 416))) == fld e 391 136 then
        let s1 : State := { s with falsework := { f with landed := f.landed ++ [(b, i)] } }
        if (List.range h.shards).all fun j => s1.falsework.landed.contains (b, j) then
          let s2 := s1.putHeader b { h with complete := true }
          let s3 : State := { s2 with falsework := { s2.falsework with landed := f.landed.filter (·.1 != b), resent := f.resent.filter (·.1.1 != b) } }
          s3.toOwner (.fwComplete s.pierId h.step)
        else s1
      else
        let n := aget f.resent (b, i) 0
        if n < 3 then
          ({ s with falsework := { f with resent := aset f.resent (b, i) (n + 1) } }.bump .hiding FH_RESENDS).toOwner (.shardAgain i)
        else (s.faultEvent { s.faultRec EV_GEN_FAILED with step := h.step }).toOwner (.shardFailed s.pierId)

/-- The buddy's copy of a generation is complete, or has failed; a failed one counts as abandoned (R412). -/
def buddyAnswer (s : State) (step : Option Nat) : State :=
  match s.falsework.run with
  | none => s
  | some g =>
    match step with
    | some st => if st == g.step then { s with falsework := { s.falsework with run := some { g with buddyDone := true } } }.settleGeneration else s
    | none => { s with falsework := { s.falsework with run := if g.localDone then none else some { g with buddyDone := true } } }

/-! ### The hold on pass 2 (R414) -/

/-- A layer's shards have been read: an UP2 of a later step that waited for it may start. -/
def holdRelease (s : State) (unit ldesc : Nat) : State :=
  let s1 := s.readLayer (unit, ldesc)
  let r := SRef.u unit
  let t := s1.stream r
  let w := s1.head r
  if t.phase == .waitEngine && w.opcode == OP_UP2 && w.didx == ldesc && !s1.fwHolds t.step (unit, ldesc) then
    (s1.bump .hiding FH_HOLD (s.aclk - t.since)).setStream r { t with phase := .ready }
  else s1

/-- UP2 at the head, held while the layer's shards of an earlier step are still to be read. -/
def up2Held (s : State) (r : SRef) (w : IWord) : State :=
  let t := s.stream r
  if s.fwHolds t.step (coreOf r, w.didx) then s.setStream r { t with phase := .waitEngine }
  else
    let s1 := s.doUp2 r w
    if s1.job.needRecovery && !s.job.needRecovery then s1.askRecovery else s1

end State

end Sys2Proof.Machine
end

