-- ==== Sys2Proof/Machine/Reshard.lean ====
section
/-! DEFINITION. The in-place re-shard: chunk list, journal, staging, installation and their barriers (R314 to R317). -/

namespace Sys2Proof.Machine

/-- A chunk entry (R314). -/
structure Chunk where
  src : Nat
  dst : Nat
  srcAddr : Nat
  dstAddr : Nat
  len : Nat
  off : Nat
  kind : Nat
deriving DecidableEq, Repr

def Chunk.ofNat (v : Nat) : Chunk :=
  { src := fld v 255 244, dst := fld v 243 232, srcAddr := fld v 231 184, dstAddr := fld v 183 136, len := cdiv (fld v 135 104) 4 * 4
    off := cdiv (fld v 103 64) 4096 * 4096, kind := fld v 63 62 }

/-- Journal phases and entry states (R315). -/
abbrev RP_STAGE : Nat := 0
abbrev RP_INSTALL : Nat := 1
abbrev RP_DONE : Nat := 2
abbrev RP_ABANDONED : Nat := 3
/-- What piers report where a pier of the span has been fully reset (R399). -/
abbrev RP_RESET : Nat := 4
abbrev RE_PENDING : Nat := 0
abbrev RE_STAGED : Nat := 1
abbrev RE_INSTALLED : Nat := 2

/-- The collective number that chunk messages carry. -/
abbrev RESHARD_COLL : Nat := 0xFFFFFFFF

namespace State

def chunkAt (s : State) (c : CollDesc) (i : Nat) : Chunk := Chunk.ofNat (s.nat (c.aux + 32 * i) 32)

/-- Clamps of a chunk list (R314). -/
def chunkClamps (s : State) (c : CollDesc) : List ClampRec :=
  let n := (s.leafSeq c.span).length
  (List.range c.auxCount).flatMap fun i =>
    let a := c.aux + 32 * i
    let v := s.nat a 32
    let own (leaf : Nat) : Bool := ((s.leafSeq c.span).map fun l => s.servedBy l.pier)[leaf]? == some s.pierId
    checkFields { kind := 1, index := a / 32 } v ([
      { hi := 255, lo := 244, rule := rNull (· < n) }, { hi := 243, lo := 232, rule := rNull (· < n) },
      { hi := 135, lo := 104, rule := rUp fun x => min (cdiv (max x 1) 4 * 4) 4294967292 }, { hi := 103, lo := 64, rule := rUp fun x => cdiv x 4096 * 4096 },
      { hi := 63, lo := 62, rule := rNull (· ≤ 2) }, { hi := 61, lo := 0, rule := rZero }] ++
      Field.used { hi := 231, lo := 184, rule := rNull (s.window .host) } (own (fld v 255 244) && fld v 63 62 == 0) ++
      Field.used { hi := 183, lo := 136, rule := rNull (s.window .host) } (own (fld v 243 232)))

/-- This pier's leaf position in the re-shard's span. -/
def reshardLeaf (s : State) (c : CollDesc) : Nat := (s.leafPos c.span s.pierId).getD 0xFFFF

/-- Chunks this pier receives, ascending. -/
def chunksIn (s : State) (c : CollDesc) : List Nat := (List.range c.auxCount).filter fun i => (s.chunkAt c i).dst == s.reshardLeaf c

/-- Address of the journal entry of a received chunk. -/
def entryAddr (s : State) (c : CollDesc) (i : Nat) : Nat := c.journal + 64 + 8 * (s.chunksIn c).findIdx (· == i)
def entryState (s : State) (c : CollDesc) (i : Nat) : Nat := fld (s.nat (s.entryAddr c i) 8) 43 42
def putEntry (s : State) (c : CollDesc) (i st crc : Nat) : State := s.writeNat (s.entryAddr c i) 8 (i % 2 ^ 20 * 2 ^ 44 + st * 2 ^ 42 + crc % 2 ^ 32 * 2 ^ 10)

/-- The phase of the journal's header set. -/
def setPhase (s : State) (c : CollDesc) (ph : Nat) : State := s.writeNat c.journal 64 (setFld (s.nat c.journal 64) 383 382 ph)

/-- The bytes of a chunk at its source: memory, or an intact falsework copy of the last generation of its leaf. -/
def chunkBytes (s : State) (k : Chunk) : List (Byte × Bool) :=
  let base : Nat := match k.kind with
    | 0 => 0
    | _ =>
      let area := if k.kind == 1 then s.fwArea else s.budArea
      let hs := [0, 1].map fun i => (slotBase area i, s.genHeader (slotBase area i))
      ((hs.filter fun h => h.2.complete).foldl (fun (m : Option (Nat × GenHeader)) h => match m with
        | some x => if x.2.gen < h.2.gen then some h else some x
        | none => some h) none).elim 0 (·.1)
  s.bytes (base + k.srcAddr) k.len

/-- The re-shard under way: its collective descriptor. -/
def reshardDesc (s : State) : Option (Nat × CollDesc × Nat) := s.falsework.reshard.map fun r => (r.1, CollDesc.ofNat r.2.1, r.2.2)

/-- Piers that hold a leaf of the re-shard and have not been lost since it began. -/
def reshardPiers (s : State) (c : CollDesc) : List Nat :=
  (((s.leafSeq c.span).zipIdx.filter fun l => !s.falsework.reshardGone.contains l.2).map fun l => s.servedBy l.1.pier).eraseDups

/-- Every pier of the re-shard's span told. -/
def tellReshard (s : State) (c : CollDesc) (m : CtrlMsg) : State := s.sendCtrlAll ((s.spanPiers c.span).filter (· != s.pierId)) m

/-- A pier has done its part of a phase. -/
def reshardReport (s : State) (pier phase : Nat) : State :=
  { s with falsework := { s.falsework with reshardDone := (pier, phase) :: s.falsework.reshardDone.filter (· != (pier, phase)) } }

/-- Once every chunk of this pier is staged, the others are told. -/
def reshardStagedAll (s : State) (c : CollDesc) : State :=
  if (s.chunksIn c).all fun i => s.entryState c i ≥ RE_STAGED then (s.tellReshard c (.reshardDone s.pierId RP_STAGE)).reshardReport s.pierId RP_STAGE else s

/-- A chunk arrives: staged, its CRC formed as it came checked, and marked (R316 step 2). -/
def stageChunk (s : State) (c : CollDesc) (i : Nat) (bs : List (Byte × Bool)) (crc : Nat) : State :=
  ((s.write (c.stage + (s.chunkAt c i).off) bs).putEntry c i RE_STAGED crc).reshardStagedAll c

/-- The operator gives up at staging: every header ABANDONED, nothing installed (R316). -/
def reshardAbandon (s : State) : State :=
  match s.reshardDesc with
  | none => s
  | some (_, c, _) =>
    let s1 := s.setPhase c RP_ABANDONED
    { s1 with falsework := { s1.falsework with reshard := none, reshardDone := [], reshardSent := [] }, job := { s1.job with holds := s1.job.holds.filter (· != 1) } }

/-- A chunk's message (R316): the data and its CRC as the source read it. One whose CRC fails is asked for again, up to
three times. -/
def reshardChunk (s : State) (i : Nat) (bs : List (Byte × Bool)) : State :=
  match s.reshardDesc with
  | none => s
  | some (_, c, _) =>
    let n := bs.length - 4
    let crc := leNat ((bs.drop n).map (·.1))
    if s.entryState c i != RE_PENDING then s
    else if crc32c ((bs.take n).map (·.1)) == crc then s.stageChunk c i (bs.take n) crc
    else
      let k := aget s.falsework.reshardSent i 0
      let src := s.servedBy ((s.leafSeq c.span).getD (s.chunkAt c i).src ⟨3, 0, 0⟩).pier
      if k ≥ 3 then (s.tellReshard c (.reshardDone s.pierId RP_ABANDONED)).reshardReport s.pierId RP_ABANDONED
      else ({ s with falsework := { s.falsework with reshardSent := aset s.falsework.reshardSent i (k + 1) } }.bump .coll OC_RESENDS).sendCtrl src (.reshardAgain s.pierId i)

/-- A chunk's bytes sent to its destination, or staged here. -/
def putChunk (s : State) (c : CollDesc) (i : Nat) (bs : List (Byte × Bool)) : State :=
  let crc := crc32c (bs.map (·.1))
  let pier := s.servedBy ((s.leafSeq c.span).getD (s.chunkAt c i).dst ⟨3, 0, 0⟩).pier
  if pier == s.pierId then s.stageChunk c i bs crc
  else s.sendBytes pier 0 0 (.coll { coll := RESHARD_COLL, step := s.job.decided, src := s.reshardLeaf c, part := .chunk i }) (bs ++ (natLE 4 crc).map fun b => (b, false))

/-- A chunk read at its source and sent. -/
def sendChunk (s : State) (c : CollDesc) (i : Nat) : State :=
  let k := s.chunkAt c i
  (if k.kind == 0 then s.noteReads [(k.srcAddr, k.len)] else s).putChunk c i (s.chunkBytes k)

/-- A destination asks for a chunk again. -/
def reshardAgain (s : State) (pier i : Nat) : State :=
  match s.reshardDesc with
  | some (_, c, _) => if (s.spanPiers c.span).contains pier then s.sendChunk c i else s
  | none => s

/-- The re-shard starts on this pier: its journal written, its chunks sent (R316 steps 1 and 2). `newId` is the plan it
leads to. -/
def reshardStart (s : State) (cmd desc newId : Nat) : State :=
  let c := CollDesc.ofNat desc
  let ins := s.chunksIn c
  let hdr := s.job.decided % 2 ^ 64 * 2 ^ 448 + s.plan.planId % 2 ^ 32 * 2 ^ 416 + newId % 2 ^ 32 * 2 ^ 384 + ins.length * 2 ^ 362
  let s1 : State := { s with falsework := { s.falsework with reshard := some (cmd, desc, RP_STAGE), reshardSent := [], reshardGone := [] } }
  let s2 := ins.foldl (fun t i => t.putEntry c i RE_PENDING 0) (s1.writeNat c.journal 64 hdr)
  (((List.range c.auxCount).filter fun i => (s.chunkAt c i).src == s.reshardLeaf c).foldl (fun t i => t.sendChunk c i) s2).reshardStagedAll c

/-- Bytes of another leaf's memory from the latest complete buddy copy here: the shard that covers them (R415). -/
def copyBytes (s : State) (a n : Nat) : Option (List (Byte × Bool)) :=
  let hs := ([0, 1].map fun i => (s.budSlot i, s.genHeader (s.budSlot i))).filter fun h => h.2.complete
  (hs.foldl (fun (m : Option (Nat × GenHeader)) h => match m with
    | some x => if x.2.gen < h.2.gen then some h else some x
    | none => some h) none).bind fun h =>
    ((List.range h.2.shards).map fun i => s.nat (h.1 + 64 + 64 * i) 64).findSome? fun e =>
      let src := fld e 503 456
      if src ≤ a && a + n ≤ src + fld e 455 416 then some (s.bytes (h.1 + fld e 415 392 * LOC + (a - src)) n) else none

/-- A pier is lost during a re-shard: its chunks come from falsework, sent by its buddy, and no barrier waits for it
(R316, R398). A chunk that no copy covers fails the staging. -/
def reshardLose (s : State) (pier : Nat) : State :=
  match s.reshardDesc with
  | none => s
  | some (_, c, ph) =>
    match s.leafPos c.span pier with
    | none => s
    | some leaf =>
      let s0 : State := { s with falsework := { s.falsework with reshardGone := leaf :: s.falsework.reshardGone } }
      if ph != RP_STAGE || (s.barrierPiers.findIdx? (· == pier)).bind s.buddyLeaf != s.ownLeaf || s.ownLeaf.isNone then s0
      else
        ((List.range c.auxCount).filter fun i => (s.chunkAt c i).src == leaf && (s.chunkAt c i).dst != leaf).foldl (fun t i =>
          let k := t.chunkAt c i
          match t.copyBytes k.srcAddr k.len with
          | some bs => t.putChunk c i bs
          | none => (t.tellReshard c (.reshardDone t.pierId RP_ABANDONED)).reshardReport t.pierId RP_ABANDONED) s0

/-- Every staged chunk copied to its destination in ascending chunk index, and marked (R316 step 4). -/
def installChunks (s : State) (c : CollDesc) : State :=
  let todo := (s.chunksIn c).filter fun i => s.entryState c i != RE_INSTALLED
  (todo.foldl (fun (t : State) i =>
    let k := t.chunkAt c i
    (t.write k.dstAddr (t.bytes (c.stage + k.off) k.len)).putEntry c i RE_INSTALLED (fld (t.nat (t.entryAddr c i) 8) 41 10)) s).bump .coll OC_CHUNKS todo.length

/-- The barrier over the span once every chunk is staged: the header set to INSTALL, and this pier installs (R316 steps 3
and 4). -/
def stageBarrier (s : State) : State :=
  match s.reshardDesc with
  | none => s
  | some (cmd, c, ph) =>
    if ph != RP_STAGE || !(s.reshardPiers c).all (fun p => s.falsework.reshardDone.contains (p, RP_STAGE)) then s
    else
      let s1 := (s.setPhase c RP_INSTALL).installChunks c
      let s2 : State := { s1 with falsework := { s1.falsework with reshard := some (cmd, (s.falsework.reshard.map (·.2.1)).getD 0, RP_INSTALL) } }
      (s2.tellReshard c (.reshardDone s.pierId RP_INSTALL)).reshardReport s.pierId RP_INSTALL

/-- After a compute reset, the re-shard goes on from the journal (R317). -/
def reshardResume (s : State) : State :=
  match s.reshardDesc with
  | none => s
  | some (_, c, ph) =>
    if ph == RP_INSTALL then s.installChunks c
    else
      let mine := (List.range c.auxCount).filter fun i => (s.chunkAt c i).src == s.reshardLeaf c
      let local' := mine.filter fun i => (s.chunkAt c i).dst == s.reshardLeaf c
      let sent := mine.filter fun i => (s.chunkAt c i).dst != s.reshardLeaf c
      let s1 := (local'.filter fun i => s.entryState c i == RE_PENDING).foldl (fun t i => t.sendChunk c i) s
      sent.foldl (fun t i => t.sendChunk c i) s1

end State

end Sys2Proof.Machine
end

