-- ==== Sys2Proof/Machine/Operate.lean ====
section
/-! DEFINITION. Operators: the invocation, its checks, its units spread over the core sequence, and what each operator
writes (R319 to R332). -/

namespace Sys2Proof.Machine

/-! ### The invocation (R319, R325) -/

/-- Operator codes (R325). -/
abbrev OPR_MATMUL : Nat := 0x01
abbrev OPR_ATTN_FWD : Nat := 0x10
abbrev OPR_ATTN_BWD : Nat := 0x11
abbrev OPR_RMSNORM : Nat := 0x20
abbrev OPR_RMSNORM_BWD : Nat := 0x21
abbrev OPR_LAYERNORM : Nat := 0x22
abbrev OPR_LAYERNORM_BWD : Nat := 0x23
abbrev OPR_SOFTMAX : Nat := 0x24
abbrev OPR_SOFTMAX_BWD : Nat := 0x25
abbrev OPR_XENT : Nat := 0x30
abbrev OPR_ROUTE : Nat := 0x40
abbrev OPR_COMBINE : Nat := 0x41
abbrev OPR_COMBINE_BWD : Nat := 0x42
abbrev OPR_ROUTE_BWD : Nat := 0x43
abbrev OPR_EMBED : Nat := 0x50
abbrev OPR_EMBED_BWD : Nat := 0x51
abbrev OPR_CONVERT : Nat := 0x60
abbrev OPR_INIT : Nat := 0x61
abbrev OPR_COLLECTIVE : Nat := 0x70
abbrev OPR_UPDATE : Nat := 0x80
abbrev OPR_COPY_REFRESH : Nat := 0x81
abbrev OPR_FW_WRITE : Nat := 0x90
abbrev OPR_FW_RESTORE : Nat := 0x91
abbrev OPR_RESHARD : Nat := 0xA0

def opCodes : List Nat :=
  [OPR_MATMUL, OPR_ATTN_FWD, OPR_ATTN_BWD, OPR_RMSNORM, OPR_RMSNORM_BWD, OPR_LAYERNORM, OPR_LAYERNORM_BWD, OPR_SOFTMAX, OPR_SOFTMAX_BWD, OPR_XENT, OPR_ROUTE,
   OPR_COMBINE, OPR_COMBINE_BWD, OPR_ROUTE_BWD, OPR_EMBED, OPR_EMBED_BWD, OPR_CONVERT, OPR_INIT, OPR_COLLECTIVE, OPR_UPDATE, OPR_COPY_REFRESH, OPR_FW_WRITE,
   OPR_FW_RESTORE, OPR_RESHARD]

structure Oper where
  op : Nat
  span : Handle
  rblock : Nat
  boundary : Bool
  deadline : Nat
  d0 : Nat
  d1 : Nat
  d2 : Nat
  dbase : Nat
  dim0 : Nat
  dim1 : Nat
  dim2 : Nat
  addr0 : Nat
  addr1 : Nat
  eps : F32
  aux : Nat
  engine : Nat
  rowT : Bool
  colT : Bool
  normal : Bool
  ctl : Nat
deriving DecidableEq, Repr

/-- The invocation record and parameter block, the block above the record. -/
def Oper.ofNat (v : Nat) : Oper :=
  let b := v / 2 ^ 128
  let e := BitVec.ofNat 32 (fld b 207 176)
  { op := fld v 127 120, span := Handle.ofNat (fld v 119 88), rblock := fld v 87 56, boundary := fld v 55 54 == 1, deadline := fld v 53 24
    d0 := fld b 511 496, d1 := fld b 495 480, d2 := fld b 479 464, dbase := fld b 447 400, dim0 := fld b 399 368, dim1 := fld b 367 336, dim2 := fld b 335 304
    addr0 := fld b 303 256, addr1 := fld b 255 208, eps := if posFinite e then e else pow2 (-20), aux := fld b 175 144
    engine := if fld b 143 141 ≤ 4 then fld b 143 141 else 0, rowT := bitOf b 140, colT := bitOf b 139, normal := fld b 138 137 == 1, ctl := fld b 136 105 }

def Oper.desc (o : Oper) (i : Nat) : Nat := o.dbase + 64 * i

/-- Row operators of R327. -/
def Oper.isNorm (o : Oper) : Bool := OPR_RMSNORM ≤ o.op && o.op ≤ OPR_SOFTMAX_BWD
def Oper.isBwd (o : Oper) : Bool := o.isNorm && o.op % 2 == 1
def Oper.isRoute (o : Oper) : Bool := OPR_ROUTE ≤ o.op && o.op ≤ OPR_ROUTE_BWD
def Oper.softmax (o : Oper) : Bool := o.op == OPR_SOFTMAX || o.op == OPR_SOFTMAX_BWD
def Oper.layer (o : Oper) : Bool := o.op == OPR_LAYERNORM || o.op == OPR_LAYERNORM_BWD

/-- A core position of this pier: its place in the core sequence, its core slot, and the units it runs (R322). -/
structure Seat where
  pos : Nat
  slot : Nat
  first : Nat
  count : Nat
deriving DecidableEq, Repr

def Seat.units (k : Seat) : List Nat := (List.range k.count).map (k.first + ·)

/-- Record and parameter block as one number. -/
def OpRun.full (x : OpRun) : Nat := x.record + x.block * 2 ^ 128
def OpRun.oper (x : OpRun) : Oper := Oper.ofNat x.full

/-- What running an operator gives: the state, and the sums of its core positions. -/
structure OpOut where
  s : State
  sums : List (Nat × List Nat) := []

namespace State

/-! ### Spreading the work (R322) -/

/-- The core sequence of a span: pier that serves, and core slot. -/
def coreSeq (s : State) (h : Handle) : List (Nat × Nat) :=
  (s.leafSeq h).flatMap fun l =>
    let p := s.servedBy l.pier
    match l.level with
    | 0 => [(p, l.index)]
    | 1 => (List.range 32).map fun i => (p, 32 * l.index + i)
    | 2 => (List.range 512).map fun i => (p, 512 * l.index + i)
    | _ => (List.range 2048).map fun i => (p, i)

/-- This pier's positions that run units: unit u runs on position floor(u × C / U). -/
def seats (s : State) (h : Handle) (total : Nat) : List Seat :=
  let cs := s.coreSeq h
  let n := max cs.length 1
  cs.zipIdx.filterMap fun x =>
    let lo := cdiv (x.2 * total) n
    let hi := min total (cdiv ((x.2 + 1) * total) n)
    if x.1.1 == s.pierId && lo < hi then some { pos := x.2, slot := x.1.2, first := lo, count := hi - lo } else none

/-- Core slots of the span on this pier that are unserved (R322). -/
def opUnserved (s : State) (h : Handle) : Bool :=
  (s.coreSeq h).any fun x => x.1 == s.pierId && !s.coreServed x.2 && !s.fp.reduced.any fun r => r.2 == x.2

/-- A span that runs in recovery mode, on a spare pier or on a reduced placement (R332). -/
def opDegraded (s : State) (h : Handle) : Bool :=
  (s.leafSeq h).any (fun l => s.servedBy l.pier != l.pier) ||
  (s.coreSeq h).any fun x => x.1 == s.pierId && (s.fp.recovery.contains x.2 || s.fp.reduced.any fun r => r.2 == x.2)

/-- A leaf whose pier is lost without a substitute (R27, R332). -/
def opLeafGone (s : State) (h : Handle) : Bool :=
  (s.spanPiers h).any fun p => s.falsework.lost.contains p || (p != s.pierId && rtReach (s.routeOf p) == 2)

/-! ### Checks (R319, R323, R325, R326) -/

def opAt (s : State) (o : Oper) (i : Nat) : OpDesc := s.operandAt (o.desc i)

/-- A transposed side, an engine's formats: whether an engine takes a matrix product's operands (R326). -/
def matmulOk (s : State) (o : Oper) : Bool :=
  let r := s.opAt o o.d0
  let c := s.opAt o o.d1
  let wide (x : OpDesc) : Bool := match x.elem with | .bf16 | .fp32 => true | _ => false
  match o.engine with
  | 1 => pairOk false true r c && !o.rowT && !o.colT
  | 2 => pairOk false false r c
  | 3 => pairOk true true r c && !o.rowT && !o.colT
  | 4 => wide r && wide c && !o.rowT && !o.colT
  | _ => if r.elem == .fp32 || c.elem == .fp32 then wide r && wide c && !o.rowT && !o.colT else pairOk false false r c

/-- The array a matrix product runs on (R326): none is the trestle unit. -/
def matmulArr (s : State) (o : Oper) : Option Arr :=
  let r := s.opAt o o.d0
  let c := s.opAt o o.d1
  match o.engine with
  | 1 => some .f
  | 2 => some .b0
  | 3 => some .t
  | 4 => none
  | _ =>
    if r.elem == .fp32 || c.elem == .fp32 then none
    else if widthClass r ≤ 8 && widthClass c ≤ 8 && !o.rowT && !o.colT then some .f else some .b0

/-- Whether the span an item names is the operator's own (R326). -/
def sameSpan (s : State) (a b : Handle) : Bool := a == b || s.leafSeq a == s.leafSeq b

/-- The instruction word a kernel's descriptor is checked under. -/
def kernelWord (op : Nat) : IWord := OP_VRUN + (if op ≥ OPR_ROUTE then 0xA2 + (op - OPR_ROUTE) else 0xA1) * 2 ^ 104

/-- Every field and descriptor of an operator (R319, R325, R326). -/
def checkOper (s : State) (v : Nat) : Chk :=
  let o := Oper.ofNat v
  let it : Item := { kind := 0, index := 0 }
  let B : Nat := 128
  let f (hi lo : Nat) (r : ClampRule) : Field := { hi := hi + B, lo := lo + B, rule := r }
  let base : Bool := o.op != OPR_FW_WRITE && o.op != OPR_FW_RESTORE
  let dim0 : Bool := (o.op == OPR_MATMUL || o.op == OPR_ATTN_FWD || o.op == OPR_ATTN_BWD || o.isNorm || o.isRoute || o.op == OPR_EMBED ||
    o.op == OPR_EMBED_BWD || o.op == OPR_UPDATE || o.op == OPR_COPY_REFRESH)
  let a0 : Bool := (o.isNorm && !o.softmax) || o.op == OPR_XENT || o.op == OPR_EMBED || o.op == OPR_EMBED_BWD || o.op == OPR_RESHARD
  let a1 : Bool := (o.isNorm && !o.softmax) || o.op == OPR_XENT || o.op == OPR_EMBED_BWD
  let eps : Bool := o.op == OPR_RMSNORM || o.op == OPR_LAYERNORM
  let ctl : Bool := o.isNorm || o.op == OPR_XENT || o.op == OPR_CONVERT || o.op == OPR_INIT
  let place (n : Nat) : ClampRule := rNull fun x => aligned n x && (s.window .op x || s.window .host x)
  let ix (hi lo k : Nat) (g : Nat → Chk) : Chk := named it (hi + B) (lo + B) (setFld v (hi + B) (lo + B) k) o.dbase g
  let op := s.checkOp .op
  let run (n : Nat) (g : Nat → Chk) : Chk := Chk.all ((List.range n).map fun i => ix 511 496 ((o.d0 + i) % 65536) g)
  let also (a b : Nat → Chk) : Nat → Chk := fun x => (a x).also (b x)
  let mode (bwd : Bool) (x : Nat) : Chk := .ofClamps (need ((fld (s.nat x 64) 491 490 == 1) == bwd) (descItem x) 491 490 (s.nat x 64))
  let spanIs (hi lo : Nat) (x : Nat) : Chk := .ofClamps (need (s.sameSpan (Handle.ofNat (fld (s.nat x 64) hi lo)) o.span) (descItem x) hi lo (s.nat x 64))
  let xentIn (x : Nat) : Chk := .ofClamps (need (match (s.operandAt x).elem with | .g12 | .bf16 | .fp16 | .fp32 => true | _ => false) (descItem x) 452 448 (s.nat x 64))
  let likes (a b : OpDesc) : Bool := a.fmtField == b.fmtField && a.inner == b.inner && a.maskEn == b.maskEn && a.zmapEn == b.zmapEn
  let fields := Chk.ofClamps (checkFields it v ([
    { hi := 127, lo := 120, rule := rNull opCodes.contains }, { hi := 119, lo := 88, rule := rNull fun h => s.handleOk (Handle.ofNat h) },
    { hi := 55, lo := 54, rule := rDflt (· ≤ 1) 0 }, { hi := 53, lo := 24, rule := rSat 0 1073741823 }, { hi := 23, lo := 0, rule := rZero }] ++
    Field.used (f 447 400 (rNull fun x => aligned 64 x && planPlace x 64)) base ++ Field.used (f 399 368 (rNull (· ≥ 1))) dim0 ++
    Field.used (f 303 256 (place 4)) a0 ++ Field.used (f 255 208 (place 8)) a1 ++
    Field.used (f 207 176 (rDflt (fun x => posFinite (BitVec.ofNat 32 x)) (pow2 (-20)).toNat)) eps ++
    Field.used (f 143 141 (rDflt (· ≤ 4) 0)) (o.op == OPR_MATMUL) ++ (if ctl then ctlFields s.inDebug (105 + B) else []) ++ [f 104 0 rZero]))
  let unitOf (x : Nat) : Nat := (LayerDesc.ofNat (s.nat x 64)).stateBase / max (s.localGib * GiB) 1
  let body : Chk :=
    if o.op == OPR_MATMUL then Chk.all [ix 511 496 o.d0 op, ix 495 480 o.d1 op, ix 479 464 o.d2 (s.checkDrain 0 · .op),
      .ofClamps (need (s.matmulOk o) it (511 + B) (496 + B) v)]
    else if o.op == OPR_ATTN_FWD || o.op == OPR_ATTN_BWD then
      run o.dim1 (also (fun x => s.checkAttn it (kernelWord o.op) 0 o.dbase false x .op) (mode (o.op == OPR_ATTN_BWD)))
    else if o.isNorm then (ix 511 496 o.d0 op).also (ix 495 480 o.d1 op)
    else if o.op == OPR_XENT then (ix 511 496 o.d0 (also op xentIn)).also (ix 495 480 o.d1 op)
    else if o.isRoute then run o.dim0 fun x => s.checkRoute it (kernelWord o.op) 0 o.dbase false x .op
    else if o.op == OPR_EMBED then Chk.all [ix 511 496 o.d0 op, ix 495 480 o.d1 op, .ofClamps (need (likes (s.opAt o o.d0) (s.opAt o o.d1)) it (495 + B) (480 + B) v)]
    else if o.op == OPR_EMBED_BWD then ix 511 496 o.d0 op
    else if o.op == OPR_CONVERT then ix 511 496 o.d0 fun x => s.checkConv (OP_QCONV + o.ctl * 2 ^ 64) 0 o.dbase x .op
    else if o.op == OPR_INIT then ix 511 496 o.d0 op
    else if o.op == OPR_COLLECTIVE then ix 511 496 o.d0 (also (s.checkColl o.dbase false) (spanIs 507 476))
    else if o.op == OPR_UPDATE || o.op == OPR_COPY_REFRESH then run o.dim0 fun x => s.checkLayer (unitOf x) o.dbase x
    else if o.op == OPR_RESHARD then ix 511 496 o.d0 (also (also (s.checkColl o.dbase true) (spanIs 507 476)) fun x =>
      (Chk.ofClamps (need (fld (s.nat x 64) 511 508 == CK_PERMUTE) (descItem x) 511 508 (s.nat x 64) ++ s.chunkClamps (CollDesc.ofNat (s.nat x 64)))).also
        { named := [let c := CollDesc.ofNat (s.nat x 64); (c.aux, c.aux + 32 * c.auxCount)] })
    else if o.op == OPR_FW_WRITE || o.op == OPR_FW_RESTORE then .ofClamps (need (s.sameSpan o.span s.barrierHandle) it 119 88 v)
    else {}
  fields.also body

/-- Ranges of an operand with its side tensors. -/
def opAll (o : OpDesc) : List (Nat × Nat) :=
  opRanges o ++ (if o.zmapEn then [(o.zmapAddr, o.zmapAddr + cdiv (cdiv o.rows 16 * cdiv o.inner 64) 8)] else []) ++
  (match o.fmt with | some f => if f.kind == .e4m3t then [(o.tscale, o.tscale + 4)] else [] | none => [])

/-- Memory an operator reads and memory it writes, for the overlap rule of R323. -/
def operMemory (s : State) (o : Oper) : List (Nat × Nat) × List (Nat × Nat) :=
  let a := s.opAt o o.d0
  let b := s.opAt o o.d1
  let n := a.inner
  if o.op == OPR_MATMUL then
    let d := DrainDesc.ofNat (s.nat (o.desc o.d2) 64)
    let aux := opAll (s.operandAt d.auxDesc)
    (opAll a ++ opAll b ++ (if d.biasEn then [(d.biasAddr, d.biasAddr + 4 * o.dim1)] else []) ++ (if d.cscaleEn then [(d.cscaleAddr, d.cscaleAddr + 4 * o.dim1)] else []) ++
      (if d.fmode == 1 then aux else []), opAll (s.operandAt d.outDesc) ++ (if d.fmode == 2 then aux else []))
  else if o.op == OPR_ATTN_FWD || o.op == OPR_ATTN_BWD then
    let ds := (List.range o.dim1).map fun i => AttnDesc.ofNat (s.nat (o.desc (o.d0 + i)) 64) 128
    let bwd := o.op == OPR_ATTN_BWD
    (ds.flatMap fun d => opAll (s.opAt o d.qOp) ++ (if bwd then opAll (s.opAt o d.oOp) ++ opAll (s.opAt o d.doOp) ++ [(d.stats, d.stats + 16 * o.dim0)] else []),
     ds.flatMap fun d => if bwd then opAll (s.opAt o d.dqOp) else opAll (s.opAt o d.oOp) ++ [(d.stats, d.stats + 16 * o.dim0)])
  else if o.isNorm then
    let gam := if o.softmax then [] else [(o.addr0, o.addr0 + (if o.layer then 8 else 4) * n)]
    let st := if o.softmax then [] else [(o.addr1, o.addr1 + 8 * o.dim0)]
    let sums := [(o.addr1 + 8 * o.dim0, o.addr1 + 8 * o.dim0 + (if o.layer then 16 else 8) * n)]
    if o.isBwd then (opAll a ++ gam ++ st, opAll b ++ (if o.softmax then [] else sums)) else (opAll a ++ gam, opAll b ++ st)
  else if o.op == OPR_XENT then (opAll a ++ [(o.addr0, o.addr0 + 4 * a.rows)], opAll b ++ [(o.addr1, o.addr1 + 4 * a.rows + 4)])
  else if o.op == OPR_EMBED then (opAll a ++ [(o.addr0, o.addr0 + 4 * o.dim0)], opAll b)
  else if o.op == OPR_CONVERT then
    let c := ConvDesc.ofNat (s.nat (o.desc o.d0) 64)
    (opAll (s.opAt o c.srcOp), opAll (s.opAt o c.dstOp))
  else if o.isRoute then
    let ds := (List.range o.dim0).map fun i => RouteDesc.ofNat (s.nat (o.desc (o.d0 + i)) 64)
    let disp (d : RouteDesc) : List (Nat × Nat) := [(d.disp, d.disp + 64 + 8 * d.experts + 12 * d.ntok * d.k)]
    let logit (d : RouteDesc) : List (Nat × Nat) := [(d.logit, d.logit + 4 * d.experts * d.ntok)]
    (ds.flatMap fun d => match o.op with
      | 0x40 => if d.readLogits then logit d else opAll (s.opAt o d.xOp) ++ opAll (s.opAt o d.wgOp)
      | 0x41 => disp d ++ opAll (s.opAt o d.retOp)
      | 0x42 => disp d ++ opAll (s.opAt o d.retOp) ++ opAll (s.opAt o d.yOp)
      | _ => disp d ++ logit d ++ [(d.dw, d.dw + 4 * d.k * d.ntok)],
     ds.flatMap fun d => match o.op with
      | 0x40 => disp d ++ (if d.readLogits then [] else logit d)
      | 0x41 => opAll (s.opAt o d.yOp)
      | 0x42 => opAll (s.opAt o d.deOp) ++ [(d.dw, d.dw + 4 * d.k * d.ntok)]
      | _ => [(d.dz, d.dz + 4 * d.experts * d.ntok)])
  else if o.op == OPR_COLLECTIVE then
    let c := CollDesc.ofNat (s.nat (o.desc o.d0) 64)
    if c.kind ≤ 3 then (opAll (s.opAt o c.srcOp), opAll (s.opAt o c.dstOp)) else ([], [])
  else ([], [])

def operOverlaps (s : State) (o : Oper) : Bool := let m := s.operMemory o; m.1.any fun a => m.2.any (overlaps a)

/-- CRC-32C of every descriptor and table the operator names (R320). -/
def operCrc (s : State) (v : Nat) : Nat := crc32c (((s.checkOper v).named.eraseDups).flatMap fun r => s.data r.1 (r.2 - r.1))

/-- The bound of an operator in µs and its governing term: collectives and updates by R309 and R246, others as the
implementation forms it (R321). -/
def operBound (s : State) (o : Oper) (record : Nat) : Nat × Nat :=
  if o.op == OPR_COLLECTIVE then
    (cdiv (s.collBound { coll := 0, desc := s.nat (o.desc o.d0) 64, dbase := o.dbase, step := 0 }) US, RT_COLLECTIVE)
  else if o.op == OPR_UPDATE then
    (((List.range 12).map fun k => cdiv (((List.range o.dim0).filterMap fun i =>
      let n := s.layerNamesAt o.dbase 0 (o.d0 + i)
      if n.l.stateBase / max (s.localGib * GiB) 1 == k then some (up2Bound n) else none).sum) 1050).foldl max 0, RT_CAMBER)
  else Config.operatorBound record

/-! ### Matrix products, kernels -/

/-- One 48-row by 256-column unit of a matrix product, accumulated over the whole reduction and drained (R323, R326). -/
def matmulUnit (s : State) (o : Oper) (slot u : Nat) : State :=
  let r := s.opAt o o.d0
  let c := s.opAt o o.d1
  let da := o.desc o.d2
  let groups := max (cdiv o.dim1 256) 1
  let m0 := 48 * (u / groups)
  let n0 := 256 * (u % groups)
  let p : Place := { m := m0, n := n0, k := 0, mLen := min 48 (o.dim0 - m0), nLen := min 256 (o.dim1 - n0), kLen := o.dim2 }
  match s.matmulArr o with
  | none =>
    let d := DrainDesc.ofNat (s.nat da 64)
    let out := s.operandAt d.outDesc
    let stride := max out.stride (4 * out.inner)
    (List.range p.mLen).foldl (fun (t : State) i => (List.range p.nLen).foldl (fun (t : State) j =>
      if m0 + i < out.rows && n0 + j < out.inner then
        let x := s.trestleElem r c d p (m0 + i) (n0 + j)
        t.writeBy .op (out.base + (m0 + i) * stride + 4 * (n0 + j)) ((natLE 4 x.1.toNat).map fun b => (b, x.2))
      else t) t) s
  | some arr =>
    let acc0 : List (List Acc) := List.replicate p.mLen (List.replicate p.nLen {})
    let ctx : TableCtx := { act := r.elem, weight := c.elem, planes := 8, seed := s.plan.seed, leaf := s.plan.leaf, core := slot, inst := 0, step := o.rblock, inner := r.inner }
    let acc := if arr == .t then s.runTable ctx r c p acc0 else s.runTile r c o.rowT o.colT p acc0
    let side := r.sideEn && c.sideEn
    let k : SlotSt := { acc := if side then acc.map fun l => l.map Acc.closeSide else acc, mLen := p.mLen, nLen := p.nLen, m := p.m, n := p.n, colAddr := o.desc o.d1
                        stream := .b slot, step := o.rblock, seq := none, side := side, mismatch := pairFails r c o.rowT o.colT, full := true }
    let tb := arr == .t
    let lr := s.loadCounts r o.rowT (!tb) p.m p.mLen 0 p.kLen
    let lc := s.loadCounts c o.colT false p.n p.nLen 0 p.kLen
    (((s.noteReads (operandReads r o.rowT (!tb) p.m p.mLen 0 p.kLen ++ operandReads c o.colT false p.n p.nLen 0 p.kLen)).bumps (.drain slot arr) (lr.1 ++ lc.1)).bump
      (.activity slot arr) AC_TILES).drainSlot slot arr k da .op

def matmulUnits (o : Oper) : Nat := cdiv o.dim0 48 * cdiv o.dim1 256

/-- One band of one head (R326): its kernel walked round by round, with spilled pages fetched first. -/
def attnUnit (s : State) (o : Oper) (slot head band : Nat) : State :=
  let v := s.nat (o.desc (o.d0 + head)) 64
  let q := s.seqSlot (fld v 511 504)
  let k : Kernel := { d := AttnDesc.ofNat v q.dh, q := q, core := slot, step := o.rblock, r := .b slot, dbase := o.dbase, op := true }
  if kernelNull k then s.report { kind := 1, clamp := CL_NULL, widthM1 := 7, bitOff := 504, index := o.desc (o.d0 + head) / 64, supplied := fld v 511 504 }
  else
    let gl := s.globalList q
    let first := min k.d.qOff 2097151 + 48 * band
    let need := s.neededPages k gl first
    let s1 := need.foldl (fun (t : State) e => let p := t.pageEntry e
      if p.state == .spilled then (t.startFetch e).fetchLands e else if p.state == .flight && p.inward then t.fetchLands e else t) s
    let rows := (s1.kernelStart k first).take (o.dim0 - 48 * band)
    let x := (List.range k.d.ring).foldl (fun (a : State × List AttnRow) rd => a.1.kernelRound k gl rd first (if rd == 0 then need else []) a.2)
      (s1.bump (.attn slot) TC_GLOBAL gl.2.1, rows)
    x.1.kernelEnd k first x.2

/-! ### Row operators (R327) -/

/-- Values of a row in FP32: decoded exactly and rounded once. -/
def rowF32 (s : State) (o : OpDesc) (n r : Nat) : List (F32 × Bool) := (List.range n).map fun c => let v := s.valueAt o r c; (rne32 v.1, v.2)

/-- The statistics of a forward row: mean and reciprocal deviation. -/
def rowStats (o : Oper) (xs : List F32) : F32 × F32 :=
  let n := f32OfNat xs.length
  let inv (v : F32) : F32 := fdiv fOne (fsqrt (fadd v o.eps))
  if o.layer then
    let mu := fdiv (knSum xs) n
    (mu, inv (fdiv (knSum (xs.map fun x => let d := fsub x mu; fmul d d)) n))
  else (0#32, inv (fdiv (knSum (xs.map fun x => fmul x x)) n))

/-- A forward row's output. -/
def rowFwd (o : Oper) (xs gam bet : List F32) (st : F32 × F32) : List F32 :=
  if o.softmax then
    let m := xs.foldl fmax fNegInf
    let es := xs.map fun x => fexp (fsub x m)
    let t := knSum es
    es.map fun e => fdiv e t
  else if o.layer then (List.zip xs (List.zip gam bet)).map fun x => fadd (fmul (fmul (fsub x.1 st.1) st.2) x.2.1) x.2.2
  else List.zipWith (fun x g => fmul (fmul x st.2) g) xs gam

/-- A backward row's gradient, from the incoming gradient, the saved input or probabilities, and the statistics (R111). -/
def rowBwd (o : Oper) (gs xs gam : List F32) (st : F32 × F32) : List F32 :=
  let n := f32OfNat xs.length
  if o.softmax then
    let t := knSum (List.zipWith fmul xs gs)
    List.zipWith (fun p g => fmul p (fsub g t)) xs gs
  else
    let cs := if o.layer then xs.map fun x => fsub x st.1 else xs
    let gg := List.zipWith fmul gs gam
    let k := fdiv (fmul (fmul (knSum (List.zipWith fmul gg cs)) st.2) st.2) n
    let m := if o.layer then fdiv (knSum gg) n else 0#32
    List.zipWith (fun a c => fmul st.2 (fsub (if o.layer then fsub a m else a) (fmul c k))) gg cs

def f32List (s : State) (a n : Nat) : List (F32 × Bool) := (List.range n).map fun i => s.f32At (a + 4 * i)

def putWord (s : State) (a : Nat) (w : F32) (p : Bool) : State := s.writeBy .op a ((natLE 4 w.toNat).map fun b => (b, p))

/-- Pairs as the numbers a message carries: s, c and poison. -/
def pairNat (p : (F32 × F32) × Bool) : Nat := p.1.1.toNat + p.1.2.toNat * 2 ^ 32 + b2n p.2 * 2 ^ 64
def natPair (v : Nat) : (F32 × F32) × Bool := ((BitVec.ofNat 32 v, BitVec.ofNat 32 (v / 2 ^ 32)), v / 2 ^ 64 % 2 == 1)

/-- The rows of one core position: outputs written as ATREST conversions, statistics, and its sums of the γ and β
gradients. -/
def normSeat (s : State) (o : Oper) (k : Seat) : OpOut :=
  let src := s.opAt o o.d0
  let dst := s.opAt o o.d1
  let n := src.inner
  let gam := if o.softmax then [] else s.f32List o.addr0 n
  let bet := if o.layer then s.f32List (o.addr0 + 4 * n) n else []
  let gp := gam.any (·.2) || bet.any (·.2)
  let saved := OpDesc.ofNat (s.nat (Config.savedOperand (o.dbase * 2 ^ 32 + o.d0 * 2 ^ 16 + o.d1)) 64)
  let rows := k.units.map fun r =>
    let a := s.rowF32 src n r
    if o.isBwd then
      let x := s.rowF32 saved n r
      let mu := s.f32At (o.addr1 + 8 * r)
      let rr := s.f32At (o.addr1 + 8 * r + 4)
      let p := a.any (·.2) || x.any (·.2) || gp || (!o.softmax && (mu.2 || rr.2))
      let st := (mu.1, rr.1)
      let hat := x.map fun v => fmul (if o.layer then fsub v.1 st.1 else v.1) st.2
      (r, rowBwd o (a.map (·.1)) (x.map (·.1)) (gam.map (·.1)) st, st, p, List.zipWith fmul (a.map (·.1)) hat, a.map (·.1))
    else
      let p := a.any (·.2) || gp
      let st := rowStats o (a.map (·.1))
      (r, rowFwd o (a.map (·.1)) (gam.map (·.1)) (bet.map (·.1)) st, st, p, [], [])
  let out := rows.map fun x => (x.1, x.2.1.map fun y => ((f32 y, x.2.2.2.1) : PV))
  let s1 := (s.noteReads (k.units.map fun r => (src.base + r * src.stride, packedRow src.fmt src.maskEn n))).atRestRows k.slot o.rblock o.ctl dst out .op
  let s2 := if o.isBwd || o.softmax then s1 else rows.foldl (fun (t : State) x =>
    (t.putWord (o.addr1 + 8 * x.1) x.2.2.1.1 x.2.2.2.1).putWord (o.addr1 + 8 * x.1 + 4) x.2.2.1.2 x.2.2.2.1) s1
  let sum (pick : Nat → List F32) : List Nat := (List.range n).map fun c =>
    pairNat (rows.zipIdx.foldl (fun p x => (knAdd p.1 ((pick x.2).getD c 0#32), p.2 || x.1.2.2.2.1)) (pair0, false))
  let grads (i : Nat) : List F32 := ((rows[i]?).map fun x => x.2.2.2.2.1).getD []
  let betas (i : Nat) : List F32 := ((rows[i]?).map fun x => x.2.2.2.2.2).getD []
  { s := s2, sums := if !o.isBwd || o.softmax then [] else [(k.pos, sum grads ++ (if o.layer then sum betas else []))] }

/-! ### Cross-entropy (R328) -/

def xentLabel (s : State) (o : Oper) (r : Nat) : Nat × Bool := (s.nat (o.addr0 + 4 * r) 4, s.poisoned (o.addr0 + 4 * r) 4)
def xentIgnored (s : State) (o : Oper) (r : Nat) : Bool := let l := (s.xentLabel o r).1; l ≥ (s.opAt o o.d0).inner || l == o.aux

/-- Rows of this pier that are not ignored. -/
def xentCount (s : State) (o : Oper) : Nat :=
  ((s.seats o.span (s.opAt o o.d0).rows).flatMap Seat.units).countP fun r => !s.xentIgnored o r

def xentSeat (s : State) (o : Oper) (nvalid : Nat) (k : Seat) : OpOut :=
  let src := s.opAt o o.d0
  let dst := s.opAt o o.d1
  let n := src.inner
  let rows := k.units.map fun r =>
    let l := s.xentLabel o r
    if s.xentIgnored o r then (r, (0#32 : F32), List.replicate n (0#32 : F32), l.2)
    else
      let z := s.rowF32 src n r
      let p := l.2 || z.any (·.2)
      let zs := z.map (·.1)
      if zs.any fun x => isNan32 x || x == 0x7F800000#32 then (r, nan32, List.replicate n nan32, p)
      else
        let m := zs.foldl fmax fNegInf
        let lse := fadd m (fln (knSum (zs.map fun x => fexp (fsub x m))))
        (r, fsub lse (zs.getD l.1 0#32), zs.zipIdx.map fun x => fdiv (fsub (fexp (fsub x.1 lse)) (if x.2 == l.1 then fOne else 0#32)) (f32OfNat nvalid), p)
  let bad := k.units.filter fun r => let l := (s.xentLabel o r).1; l ≥ n && l != o.aux
  let s1 := bad.foldl (fun (t : State) r => t.report { kind := 0, clamp := CL_NULL, widthM1 := 31, bitOff := 384, index := r, supplied := (s.xentLabel o r).1 }) s
  let out := rows.map fun x => (x.1, x.2.2.1.map fun y => ((f32 y, x.2.2.2) : PV))
  let s2 := (s1.noteReads (k.units.map fun r => (src.base + r * src.stride, packedRow src.fmt src.maskEn n))).atRestRows k.slot o.rblock o.ctl dst out .op
  let s3 := rows.foldl (fun (t : State) x => t.putWord (o.addr1 + 4 * x.1) x.2.1 x.2.2.2) s2
  { s := s3, sums := [(k.pos, [pairNat (rows.foldl (fun p x => (addPair p.1 x.2.1 0#32, p.2 || x.2.2.2)) (pair0, false))])] }

/-! ### Gather, scatter, conversion and initialisation (R329, R330) -/

/-- Index of a position, and whether it lies below the table's rows. -/
def embedIndex (s : State) (o : Oper) (i : Nat) : Nat := s.nat (o.addr0 + 4 * i) 4

def embedRow (s : State) (o : Oper) (r : Nat) : State :=
  let t := s.opAt o o.d0
  let d := s.opAt o o.d1
  let i := s.embedIndex o r
  if r ≥ d.rows then s
  else
    let ip := s.poisoned (o.addr0 + 4 * r) 4
    let n := packedRow d.fmt d.maskEn d.inner
    let kind := match d.fmt with | some f => f.kind | none => .none
    let ok := i < t.rows
    let codes := if ok then s.bytes (t.base + i * t.stride) n else List.replicate n (0#8, false)
    let sc := if kind == .none then [] else if ok then s.bytes (t.bscale + i * t.blocks) t.blocks
      else List.replicate d.blocks ((if kind == .ue8m0 then 0x7F#8 else 0x00#8), false)
    let mark (bs : List (Byte × Bool)) : List (Byte × Bool) := bs.map fun b => (b.1, b.2 || ip)
    let s1 := if ok then s.noteReads [(t.base + i * t.stride, n)] else s.report { kind := 0, clamp := CL_NULL, widthM1 := 31, bitOff := 384, index := r, supplied := i }
    (s1.writeBy .op (d.base + r * d.stride) (mark codes)).writeBy .op (d.bscale + r * d.blocks) (mark sc)

/-- One table row's pairs: the gradient rows of its index added in ascending position. -/
def embedSum (s : State) (o : Oper) (row : Nat) : State :=
  let g := s.opAt o o.d0
  let is := (List.range o.dim0).filter fun i => s.embedIndex o i == row
  if is.isEmpty then s
  else
    (List.range g.inner).foldl (fun (t : State) c =>
      let a := o.addr1 + 8 * (g.inner * row + c)
      let x := t.f32At a
      let y := t.f32At (a + 4)
      let p := is.foldl (fun (q : (F32 × F32) × Bool) i =>
        let v := s.valueAt g i c
        (addPair q.1 (rne32 v.1) 0#32, q.2 || v.2 || s.poisoned (o.addr0 + 4 * i) 4)) ((x.1, y.1), x.2 || y.2)
      (t.putWord a p.1.1 p.2).putWord (a + 4) p.1.2 p.2) s

/-- Positions whose index lies outside the table, reported. -/
def embedBad (s : State) (o : Oper) : State :=
  ((List.range o.dim0).filter fun i => s.embedIndex o i ≥ o.dim1).foldl (fun (t : State) i =>
    t.report { kind := 0, clamp := CL_NULL, widthM1 := 31, bitOff := 384, index := i, supplied := s.embedIndex o i }) s

def operConv (s : State) (o : Oper) : ConvJob :=
  let d := ConvDesc.ofNat (s.nat (o.desc o.d0) 64)
  let src := s.opAt o d.srcOp
  let dst := s.opAt o d.dstOp
  let site := if d.wire then Site.wire else .atrest
  let f0 : Fmt := dst.fmt.getD { elem := .fp32, kind := .none, block := 128, rot := 0, smooth := false, outlier := false }
  let p := convRows d src 0 0
  { d := d, src := src, dst := dst, fmt := siteFmt site f0, ctl := siteCtl site (Ctl.ofWord s.inDebug o.ctl), site := site, r0 := p.1, cnt := p.2, n := min src.inner dst.inner }

/-- CONVERT: with cells, they are set to +0 and every position's maxima applied first, then each position converts its
rows (R135). -/
def operConvert (s : State) (o : Oper) (ks : List Seat) : State :=
  let j := s.operConv o
  let rowsOf (r0 n : Nat) : List (List PV) := (List.range n).map fun i => s.presented j.src j.n (r0 + i)
  let all := rowsOf j.r0 j.cnt
  let q := s.convOf 0 j o.rblock (s.convOutliers { j with ctl := { j.ctl with dynamic := false } } all).1
  let am := (all.map fun x => amaxOf (q.prepare x)).foldl Amax.join {}
  let s1 := if !j.d.fromCells then s else
    let t := s.putWord j.d.amaxAddr am.word am.poison
    if j.fmt.outlier && j.ctl.dynamic then (channelAmax all j.n).zipIdx.foldl (fun (u : State) x => u.putWord (j.d.chamaxAddr + 4 * x.2) x.1.word x.1.poison) t else t
  ks.foldl (fun (t : State) k => t.convWork k.slot o.rblock { j with r0 := j.r0 + k.first, cnt := k.count } .op (rowsOf (j.r0 + k.first) k.count) all) s1

/-- The draw of element e (R330). -/
def initValue (s : State) (o : Oper) (e : Nat) : F32 :=
  let x := philox s.plan.seed (ctrOf (streamId 0 0 0x22) (o.dim1 * 2 ^ 32 + o.dim2 + e) o.rblock)
  let u1 := 2 * fld x 31 8 + 1
  let u2 := 2 * fld x 63 40 + 1
  let a := BitVec.ofNat 32 o.aux
  if o.normal then normalDraw a u1 (2 ^ 25) u2 (2 ^ 25)
  else rne32 ((f32 a).mul ((Ext.fin false u1 (2 ^ 24)).sub .one))

/-- INIT of one stored row: each element narrowed by the core position whose unit holds it. -/
def initRow (s : State) (o : Oper) (ks : List Seat) (r : Nat) : State :=
  let d := s.opAt o o.d0
  match d.fmt with
  | none => s
  | some f0 =>
    let vals : List PV := (List.range d.inner).map fun c => (f32 (s.initValue o (r * d.inner + c)), false)
    let mine := ks.filter fun k => k.first * 128 < (r + 1) * d.inner && r * d.inner < (k.first + k.count) * 128
    mine.foldl (fun (t : State) k =>
      let lo := 128 * k.first - r * d.inner
      let hi := min d.inner (128 * (k.first + k.count) - r * d.inner)
      let blk := f0.block
      (s.atRestRow k.slot o.rblock o.ctl d f0 (r, vals)).foldl (fun (t : State) x =>
        let kind := ((s.atRestFmt o.ctl f0).1).kind
        let w := t.writeElems .op (s.atRestFmt o.ctl f0).1.elem (d.base + r * d.stride) lo d.inner ((x.cells.drop lo).take (hi - lo))
        let u := if kind == .none then w.1 else w.1.writeScales .op (d.bscale + r * d.blocks + cdiv lo blk) ((x.scales.drop (cdiv lo blk)).take (cdiv hi blk - cdiv lo blk))
        let v := if f0.kind == .e4m3t then u.writeBy .op d.tscale ((natLE 4 fOne.toNat).map fun b => (b, false)) else u
        (v.bumps (.atrest k.slot) x.counts).bump (.atrest k.slot) POISONED w.2) t) s

/-! ### Layers -/

/-- A layer of an operator on the unit of the stack that holds its state. -/
def operLayer (s : State) (o : Oper) (i : Nat) : LayerNames :=
  let n := s.layerNamesAt o.dbase 0 ((o.d0 + i) % 65536)
  { n with unit := n.l.stateBase / max (s.localGib * GiB) 1 }

def operLayers (s : State) (o : Oper) : List LayerNames := (List.range o.dim0).map (s.operLayer o)

/-- Pass 1 of an UPDATE, and this pier's vote in its gate (R230, R231, R331). -/
def updateVote (s : State) (o : Oper) (attempt : Nat) : State × Nat :=
  let step := s.job.decided
  let ls := s.operLayers o
  let s1 := ls.foldl (fun (t : State) n => t.up1Work n step) s
  let p := ls.foldl (fun p n => match aget? s1.layers (n.unit, n.didx) with
    | some l => if l.norm then addPair p l.gs l.gc else p
    | none => p) pair0
  let bit (f : LayerRes → Bool) (b : Nat) : Nat := if ls.any fun n => (aget? s1.layers (n.unit, n.didx)).any f then 2 ^ b else 0
  let faults := bit (·.poison) FB_POISON ||| bit (fun l => !finite32 l.gnorm || (l.nf && finite32 l.wnorm)) FB_NONFINITE_G ||| bit (fun l => !finite32 l.wnorm) FB_NONFINITE_W
  (s1, ({ step := step, attempt := attempt, leaf := (s.leafPos o.span s.pierId).getD 0, faults := faults, gs := p.1.toNat, gc := p.2.toNat : VoteRec }).toNat)

/-- The gate of an UPDATE decided: its record, and pass 2 with its outcome; the job step number advances (R331). Streams
that wait for the step take the next number. -/
def updateGate (s : State) (o : Oper) (v : Nat) : State :=
  let g := GateRec.ofNat v
  let s0 := (s.writeNat GATE_REC 64 v).traceDevice TR_GATE g.step (g.outcome * 2 ^ 30 + g.faults * 2 ^ 22) (g.gnorm * 2 ^ 64)
  if g.outcome ≥ GO_FAIL then s0.bump .gate GC_FAIL
  else
    let skip := g.outcome == GO_SKIP
    let s1 := if skip then s0.bump .gate GC_SKIP else (s0.bump .gate GC_PASS).countGroups
    let s2 := (s.operLayers o).foldl (fun (t : State) n => t.up2Work n g.step skip) s1
    { s2 with
      job := { s2.job with decided := g.step + 1, begun := s2.job.begun.map fun b => if b ≥ g.step then b + 1 else b }
      streams := s2.streams.map fun x => if x.2.step ≥ g.step && !isU x.1 then (x.1, { x.2 with step := x.2.step + 1 }) else x }

/-! ### Running one operator on this pier -/

/-- What one operator does on this pier. -/
def operWork (s : State) (o : Oper) (count : Nat) : OpOut :=
  let units (n : Nat) (f : State → Nat → Nat → State) : OpOut :=
    { s := (s.seats o.span n).foldl (fun (t : State) k => k.units.foldl (fun (t : State) u => f t k.slot u) t) s }
  let seated (n : Nat) (f : State → Seat → OpOut) : OpOut :=
    (s.seats o.span n).foldl (fun (a : OpOut) k => let b := f a.s k; { s := b.s, sums := a.sums ++ b.sums }) { s := s }
  if o.op == OPR_MATMUL then units (matmulUnits o) fun t k u => t.matmulUnit o k u
  else if o.op == OPR_ATTN_FWD || o.op == OPR_ATTN_BWD then
    -- bands of one KV group add into its pairs in ascending band, then query head (R182)
    let bands := cdiv o.dim0 48
    let us := (s.seats o.span (o.dim1 * bands)).flatMap fun k => k.units.map fun u => (k.slot, u / bands, u % bands)
    { s := (List.range bands).foldl (fun (t : State) b => (us.filter fun x => x.2.2 == b).foldl (fun (t : State) x => t.attnUnit o x.1 x.2.1 b) t) s }
  else if o.isNorm then seated o.dim0 fun t k => t.normSeat o k
  else if o.op == OPR_XENT then seated (s.opAt o o.d0).rows fun t k => t.xentSeat o count k
  else if o.isRoute then
    units o.dim0 fun t k u =>
      let j : RouteJob := { at' := o.desc (o.d0 + u), dbase := o.dbase, core := k, step := o.rblock, view := t, g := .op, gv := .op }
      match o.op with | 0x40 => t.routeWork j | 0x41 => t.combineWork j | 0x42 => t.combineBwdWork j | _ => t.routeBwdWork j
  else if o.op == OPR_EMBED then units o.dim0 fun t _ u => t.embedRow o u
  else if o.op == OPR_EMBED_BWD then { (units o.dim1 fun t _ u => t.embedSum o u) with s := ((units o.dim1 fun t _ u => t.embedSum o u).s).embedBad o }
  else if o.op == OPR_CONVERT then { s := s.operConvert o (s.seats o.span (s.operConv o).cnt) }
  else if o.op == OPR_INIT then
    let d := s.opAt o o.d0
    { s := (List.range d.rows).foldl (fun (t : State) r => t.initRow o (s.seats o.span (cdiv (d.rows * d.inner) 128)) r) s }
  else if o.op == OPR_COPY_REFRESH then { s := (s.operLayers o).foldl (fun (t : State) n => (t.copyLayer n).1) s }
  else { s := s }

/-- Poison that arose inside an operator: words its own sites poisoned, mismatched pairs, and pages that were missing
(R331). -/
def operOwn (s : State) : Nat :=
  (s.ctr.map fun c => match c.1 with
    | (.drain _ _, i) | (.atrest _, i) | (.wire _, i) | (.camberConv _, i) => if i == POISONED || i == PAIR_MISMATCH then c.2 else 0
    | (.page, i) => if i == PC_MISS then c.2 else 0
    | _ => 0).sum

/-- Parts that an operator's work on a pier may change; of the host's own, the queue of operators stands too. -/
def operParts : List Part := [.mem, .ctr, .pages, .routes, .host, .trace, .clamps, .free]

/-- An operator run on this pier, once more from its unchanged inputs where a fault arose in it (R331): status, number of
poisoned words written, and sums. The job's own record of faults does not change. -/
def operRun (s : State) (o : Oper) (count : Nat) : OpOut × Nat × Nat :=
  let back (t : State) : State := { s.take t operParts with host := { t.host with ops := s.host.ops } }
  let s0 : State := { s with gate := { s.gate with wrote := [] } }
  let a := s0.operWork o count
  if a.s.operOwn == s.operOwn then ({ a with s := back a.s }, ST_DONE, a.s.gate.wrote.length)
  else
    let b := ({ s0 with ctr := a.s.ctr, freeCtr := a.s.freeCtr, clamps := a.s.clamps } : State).operWork o count
    ({ b with s := back b.s }, if b.s.operOwn == a.s.operOwn then ST_REPLAYED else ST_UNRECOVERABLE, b.s.gate.wrote.length)

/-! ### The exchange between the span's piers (R320, R321) -/

def opPiers (s : State) (x : OpRun) : List Nat := s.spanPiers x.oper.span
def opKey (x : OpRun) (origin cmd : Nat) : Bool := x.origin == origin && x.cmdId == cmd
def findOp (s : State) (origin cmd : Nat) : Option OpRun := s.host.ops.find? fun x => opKey x origin cmd
def setOp (s : State) (x : OpRun) : State := { s with host := { s.host with ops := s.host.ops.map fun y => if opKey y x.origin x.cmdId then x else y } }
def tellOp (s : State) (x : OpRun) (m : CtrlMsg) : State := s.sendCtrlAll (s.opPiers x) m

/-- An operator leaves this pier's queue; the last one that was due lets the next step go on (R321). -/
def removeOp (s : State) (origin cmd : Nat) : State :=
  let ops := s.host.ops.filter fun x => !opKey x origin cmd
  let s1 : State := { s with host := { s.host with ops := ops } }
  if ops.any (·.due) then s1 else { s1 with job := { s1.job with holds := s1.job.holds.filter (· != 1) } }.passGates

/-- What stands against starting on this pier: descriptors that differ, or a core slot that is unserved. -/
def opBlocked (s : State) (x : OpRun) : Nat :=
  if s.operCrc x.full != x.crc then ST_STATE else if s.opUnserved x.oper.span then ST_RESOURCE else ST_DONE

/-- The number that a collective of an operator carries. -/
def opColl (x : OpRun) : Nat := 65536 + (x.origin * 2 ^ 32 + x.cmdId)

/-- Sums of the core positions as combined: in ascending position, or in ascending leaf (R327, R328, R331). -/
def opCombine (s : State) (x : OpRun) : List Nat :=
  let o := x.oper
  let all := ((x.parts.flatMap fun p => p.2.2.2).mergeSort fun a b => a.1 ≤ b.1).map (·.2)
  if o.op == OPR_UPDATE then
    let vs := all.flatMap fun l => l.map VoteRec.ofNat
    let att := if x.again then 1 else 0
    [(gateFold s.gateClip s.skipPolicy s.job.decided att vs []).toNat]
  else
    let add (a b : Nat) : Nat := let p := natPair a; let q := natPair b; pairNat (addPair p.1 q.1.1 q.1.2, p.2 || q.2)
    match all with
    | [] => []
    | l :: ls => (ls.foldl (fun a b => List.zipWith add a b) l) ++ (if o.op == OPR_XENT then [(x.ready.map fun r => r.2.2).sum] else [])

/-- The sums written on this pier: γ and β gradients, the mean loss, or the gate's result and pass 2. -/
def opApply (s : State) (x : OpRun) (sums : List Nat) : State :=
  let o := x.oper
  if o.op == OPR_UPDATE then match sums with | v :: _ => s.updateGate o v | [] => s
  else if o.op == OPR_XENT then
    match sums with
    | v :: n :: _ =>
      let p := natPair v
      s.putWord (o.addr1 + 4 * (s.opAt o o.d0).rows) (if n == 0 then 0#32 else fdiv (resolve p.1) (f32OfNat n)) p.2
    | _ => s
  else if o.isBwd && !o.softmax then
    sums.zipIdx.foldl (fun (t : State) v =>
      let p := natPair v.1
      let a := o.addr1 + 8 * o.dim0 + 8 * v.2
      (t.putWord a p.1.1 p.2).putWord (a + 4) p.1.2 p.2) s
  else s

/-- Every pier of the operator has done its part: the sums go out, and the operator completes on the pier that accepted
it. -/
def opClose (s : State) (x : OpRun) : State :=
  let sums := s.opCombine x
  let sts := x.parts.map fun p => p.2.1
  let bad := sts.contains ST_UNRECOVERABLE
  let fail := x.oper.op == OPR_UPDATE && (match sums with | v :: _ => (GateRec.ofNat v).outcome ≥ GO_FAIL | [] => true)
  let s1 := s.tellOp x (.operatorSum x.origin x.cmdId sums)
  let s2 := if (s.opPiers x).contains s.pierId then s1.opApply x sums else s1
  let words := (x.parts.map fun p => p.2.2.1).sum
  let st := if bad || fail then ST_UNRECOVERABLE else if x.again then ST_REPLAYED else sts.foldl max ST_DONE
  let s3 := s2.logMap x.cmdId fun r => { r with poison := r.poison || words != 0, degraded := r.degraded || s.opDegraded x.oper.span }
  let s4 := (s3.finish x.cmdId st words).removeOp x.origin x.cmdId
  if s4.job.needRecovery && s4.job.running then s4.askRecovery else s4

/-- This pier's part is done: told to the pier that accepted the operator, or kept there. -/
def opParted (s : State) (x : OpRun) (status words : Nat) (sums : List (Nat × List Nat)) : State :=
  let s1 := s.setOp { x with phase := .parted }
  if x.origin == s.pierId then
    s1.setOp { x with phase := .parted, parts := x.parts.filter (fun p => p.1 != s.pierId) ++ [(s.pierId, status, words, sums)] }
  else s1.sendCtrl x.origin (.operatorPart s.pierId x.origin x.cmdId status words sums)

/-- An operator starts on this pier (R321). -/
def opStart (s : State) (x : OpRun) (count : Nat) : State :=
  let o := x.oper
  let s1 := s.setOp { x with phase := .running }
  let y : OpRun := { x with phase := .running }
  if o.op == OPR_COLLECTIVE then
    s1.collBegin { coll := opColl x, desc := s.nat (o.desc o.d0) 64, dbase := o.dbase, step := o.rblock, op := some x.cmdId }
  else if o.op == OPR_UPDATE then
    let v := s1.updateVote o (b2n x.again)
    ({ v.1 with job := { v.1.job with faults := s.job.faults } }).opParted y ST_DONE 0 [((s.leafPos o.span s.pierId).getD 0, [v.2])]
  else if o.op == OPR_RESHARD then s1.reshardStart x.cmdId (s.nat (o.desc o.d0) 64) (fld (s.nat o.addr0 64) 511 480)
  else if o.op == OPR_FW_WRITE then
    if o.boundary then ({ s1 with falsework := { s1.falsework with due := true } }).opParted y ST_DONE 0 []
    else (s1.takeNow (s.job.decided - 1)).opParted y ST_DONE 0 []
  else if o.op == OPR_FW_RESTORE then
    let s2 := s1.removeOp x.origin x.cmdId
    let cmd := if x.origin == s.pierId then some x.cmdId else none
    { s2 with falsework := { s2.falsework with verifying := true, restored := [], restoring := none, want := o.aux, copies := [], cmdId := cmd } }
  else
    let r := s1.operRun o count
    r.1.s.opParted y r.2.1 r.2.2 r.1.sums

/-- The piers' answers are in: the operator starts on every pier, or is dropped and completes with what stood against it
(R320 to R322). -/
def opDecide (s : State) (x : OpRun) : State :=
  match (s.opPiers x).findSome? fun p => x.ready.find? fun r => r.1 == p && r.2.1 != ST_DONE with
  | some r => ((s.tellOp x (.operatorRun x.origin x.cmdId false 0)).finish x.cmdId r.2.1 r.1).removeOp x.origin x.cmdId
  | none =>
    let total := (x.ready.map fun r => r.2.2).sum
    let s1 := s.tellOp x (.operatorRun x.origin x.cmdId true total)
    if (s.opPiers x).contains s.pierId then s1.opStart x total else s1.setOp { x with phase := .parted }

/-- This pier has come to an operator: what it answers. -/
def opReady (s : State) (x : OpRun) : State :=
  let st := s.opBlocked x
  let n := if st == ST_DONE && x.oper.op == OPR_XENT then s.xentCount x.oper else 0
  if x.origin == s.pierId then
    s.setOp { x with phase := .ready, ready := x.ready ++ (if (s.opPiers x).contains s.pierId then [(s.pierId, st, n)] else []) }
  else (s.setOp { x with phase := .ready }).sendCtrl x.origin (.operatorReady s.pierId x.origin x.cmdId st n)

/-- What a first attempt of an operator's collective leaves, dropped (R331). -/
def dropAttempt (s : State) (x : OpRun) : State :=
  { s with coll := { s.coll with runs := s.coll.runs.filter fun r => r.coll != opColl x, opDone := s.coll.opDone.filter fun d => d.1 != opColl x } }

/-- An operator in which a fault arose runs once more on every pier (R331). -/
def opAgain (s : State) (x : OpRun) : State :=
  let y : OpRun := { x with again := true, parts := [] }
  let n := (x.ready.map fun r => r.2.2).sum
  let s1 := ((if x.oper.op == OPR_UPDATE then s.bump .gate GC_FAIL else s.dropAttempt x).setOp y).tellOp y (.operatorRun x.origin x.cmdId true n)
  if (s.opPiers x).contains s.pierId then s1.opStart y n else s1.setOp { y with phase := .parted }

/-- One thing an operator waits for, where it has come about: the first that is due becomes ready, answers or parts that
are complete are acted on, a collective of an operator that has completed is its part. -/
def opStep (s : State) : State :=
  match s.host.ops.find? fun x => x.phase != .queued with
  | none =>
    match s.host.ops.find? (·.due) with
    | none => s
    | some x => if s.job.running && !s.passDone (s.job.decided - 1) then s else s.opReady x
  | some x =>
    let ps := s.opPiers x
    let mine := x.origin == s.pierId
    let faulted := x.parts.any fun p => p.2.1 == ST_PENDING
    match x.phase with
    | .ready => if mine && ps.all fun p => x.ready.any fun r => r.1 == p then s.opDecide x else s
    | .running =>
      if mine && faulted && !x.again then s.opAgain x
      else match s.coll.opDone.find? fun d => d.1 == opColl x with
      | some d =>
        let s1 : State := { s with coll := { s.coll with opDone := s.coll.opDone.filter fun e => e.1 != d.1 } }
        s1.opParted x (if d.2 then ST_PENDING else ST_DONE) 0 []
      | none => s
    | .parted =>
      if mine && faulted && !x.again then s.opAgain x
      else if !(mine && ps.all fun p => x.parts.any fun r => r.1 == p) then s
      else
        let failed := x.oper.op == OPR_UPDATE && (match s.opCombine x with | v :: _ => (GateRec.ofNat v).outcome ≥ GO_FAIL | [] => true)
        if failed && !x.again then s.opAgain x
        else s.opClose { x with parts := x.parts.map fun p => if p.2.1 == ST_PENDING then (p.1, ST_UNRECOVERABLE, p.2.2) else p }
    | .queued => s

/-- Operators go on as far as they can. -/
def opSteps : Nat → State → State
  | 0, s => s
  | n + 1, s => opSteps n s.opStep

/-! ### Messages about operators -/

/-- Another pier has accepted an operator whose span covers this one. -/
def takeOperator (s : State) (origin cmd record block crc : Nat) : State :=
  let x : OpRun := { origin := origin, cmdId := cmd, record := record, block := block, crc := crc, due := !(Oper.ofNat record).boundary }
  if s.host.ops.length ≥ 64 then s.sendCtrl origin (.operatorReady s.pierId origin cmd ST_RESOURCE 0)
  else if x.due && s.job.running then s.sendCtrl origin (.operatorReady s.pierId origin cmd ST_STATE 0)
  else { s with host := { s.host with ops := s.host.ops ++ [x] } }

def takeReady (s : State) (pier origin cmd status count : Nat) : State :=
  match s.findOp origin cmd with
  | some x => s.setOp { x with ready := x.ready.filter (fun r => r.1 != pier) ++ [(pier, status, count)], phase := if x.phase == .queued then .ready else x.phase }
  | none => s

def takeRun (s : State) (origin cmd : Nat) (go : Bool) (count : Nat) : State :=
  match s.findOp origin cmd with
  | some x =>
    if go then (let again := x.phase == .parted || x.phase == .running; (if again then s.dropAttempt x else s).opStart { x with again := again } count)
    else s.removeOp origin cmd
  | none => s

def takePiece (s : State) (pier origin cmd status words : Nat) (sums : List (Nat × List Nat)) : State :=
  match s.findOp origin cmd with
  | some x => s.setOp { x with parts := x.parts.filter (fun p => p.1 != pier) ++ [(pier, status, words, sums)] }
  | none => s

def takeSum (s : State) (origin cmd : Nat) (sums : List Nat) : State :=
  match s.findOp origin cmd with
  | some x =>
    let s1 := (s.opApply x sums).removeOp origin cmd
    if s1.job.needRecovery && s1.job.running then s1.askRecovery else s1
  | none => s

/-! ### The end of a re-shard (R316) -/

/-- The second barrier: the header set to DONE, the operator completes, and the new plan loads. -/
def installBarrier (s : State) : State :=
  match s.reshardDesc with
  | none => s
  | some (cmd, c, ph) =>
    if ph != RP_INSTALL || !(s.reshardPiers c).all (fun p => s.falsework.reshardDone.contains (p, RP_INSTALL)) then s
    else
      let s1 := s.setPhase c RP_DONE
      let s2 : State := { s1 with falsework := { s1.falsework with reshard := none, reshardDone := [], reshardSent := [] } }
      match s2.host.ops.find? fun x => x.cmdId == cmd && x.oper.op == OPR_RESHARD && x.phase == .running with
      | none => s2
      | some x =>
        let s3 := if x.origin == s.pierId then s2.finish cmd ST_DONE else s2
        (s3.planLoad x.oper.addr0 cmd).1.removeOp x.origin x.cmdId

/-- A re-shard given up, here or on another pier: its operator completes with a status (R316, R399). -/
def reshardFails (s : State) (status : Nat) : State :=
  match s.falsework.reshard with
  | none => s
  | some r =>
    let s1 := s.reshardAbandon
    match s1.host.ops.find? fun x => x.cmdId == r.1 && x.oper.op == OPR_RESHARD with
    | some x => (if x.origin == s.pierId then s1.finish r.1 status else s1).removeOp x.origin x.cmdId
    | none => s1

/-- Operators go on as far as they can; a compute reset holds them (R397). -/
def settleOps (s : State) : State :=
  if s.sys.computeReset then s
  else
    let told (ph : Nat) : Bool := s.falsework.reshardDone.any fun d => d.2 == ph
    let s1 := if told RP_RESET then s.reshardFails ST_UNRECOVERABLE else if told RP_ABANDONED then s.reshardFails ST_ABORTED else s
    if s1.host.ops.isEmpty then s1 else opSteps 6 s1

end State

end Sys2Proof.Machine
end

