-- ==== Sys2Proof/Machine/Run.lean ====
section
/-! DEFINITION. What every command does around its effect: when the pier hears it, what it never changes, and the
floor plan generation, host waits and poison source that follow from any change (R20, R141, R386, R387, R393, R397,
R402). -/

namespace Sys2Proof.Machine

/-- Bring-up has begun and has not stopped (R387). -/
def Boot.on : Boot → Bool
  | .testing | .linked | .training | .memTest | .ready => true
  | _ => false

/-- The floor plan is reconciled: OPEN and ROLL_CALL are accepted (R387 step 6). -/
def Boot.bound : Boot → Bool
  | .linked | .training | .memTest | .ready => true
  | _ => false

namespace State

/-! ### When the pier hears a command -/

def on (s : State) : Bool := s.sys.boot.on

/-- A die's root PLL holds lock (R386): 0 to 3 deck dies, 4 and 5 abutment dies. -/
def dieRuns (s : State) (d : Nat) : Bool := !s.sys.pllLost.contains d

/-- The deck dies run: bring-up is over and no compute reset stands (R387, R395). -/
def computing (s : State) : Bool := s.sys.boot == .ready && !s.sys.computeReset

def coreRuns (s : State) (k : Nat) : Bool := s.computing && s.dieRuns (k / 512)
def unitRuns (s : State) (u : Nat) : Bool := s.computing && s.dieRuns (u / 3)
def clusterRuns (s : State) (c : Nat) : Bool := s.computing && s.dieRuns (c / 16)

/-- The die of a stream's sequencer runs. -/
def runs (s : State) : SRef → Bool
  | .f k | .b k => s.coreRuns k
  | .u n => s.unitRuns n

/-- A viaduct port's die runs: P0 to P7 on A0, P8 to P15 on A1. -/
def portRuns (s : State) (p : Nat) : Bool := s.on && p < 16 && s.dieRuns (4 + p / 8)

def eth (s : State) (p : Nat) : EthSt := aget s.host.eth p {}
def setEth (s : State) (p : Nat) (e : EthSt) : State := { s with host := { s.host with eth := aset s.host.eth p e } }

/-- An Ethernet port takes a frame: its die runs, its link is up, and a HIP works (R334, R387, R391). -/
def hears (s : State) (p : Nat) : Bool :=
  s.on && p < 2 && s.dieRuns (4 + p) && (s.eth p).up && (s.unitGood UK_ABUT 1 || s.unitGood UK_ABUT 2)

/-! ### Host waits (R138, R141) -/

/-- The field hwait of an object: the host waits pending on it. -/
def setHwait (s : State) (id : Nat) : State :=
  let a := syncAddr id + 4
  s.writeNat a 4 (setFld (s.nat a 4) 28 16 ((s.host.waits.filter fun w => w.id == id).length))

def addWait (s : State) (w : HostWait) : State := { s with host := { s.host with waits := s.host.waits ++ [w] } }.setHwait w.id

/-- A wait leaves: it completes with a status and the object's count. -/
def endWait (s : State) (w : HostWait) (status : Nat) : State :=
  ({ s with host := { s.host with waits := s.host.waits.filter fun x => x.cmdId != w.cmdId } }.setHwait w.id).finish w.cmdId status (s.syncCount w.id)

/-- Host waits whose object has reached its value complete; a compute reset holds them all (R397). -/
def settleWaits (s : State) : State :=
  if s.sys.computeReset then s
  else (s.host.waits.filter fun w => s.syncCount w.id ≥ w.value).foldl (fun t w => t.endWait w ST_DONE) s

/-! ### Around every command -/

/-- Parts that may change as a consequence of a command's changes. -/
def afterParts : List Part :=
  [.mem, .fp, .job, .gate, .falsework, .streams, .layers, .ctr, .pages, .kernels, .routes, .net, .coll, .host, .trace, .clamps, .free]

/-- What follows from any command's changes: one more floor plan generation where the floor plan changed, and the slot
writes, operators, host waits and the job's end that a change lets complete. -/
def after (before t : State) : State := t.take (t.fpSettle before.fp).settleSlots.settleOps.settleWaits.settleJob afterParts

/-- A stage of bring-up after FW_LOAD: training from linked, and otherwise the stage itself. -/
def bootAfter (a b : Boot) : Boot := match a, b with | .linked, .training => .training | x, _ => x

/-- Fuses are burned and never cleared, and only the owner binding and the revocation fuses are burned in service (R338,
R369). -/
def burn (a b : Fuses) : Fuses :=
  { a with owner := (match a.owner with | some h => some h | none => b.owner), revoked := a.revoked ||| b.revoked }

/-- Bring-up after a host command: only FW_LOAD's commit starts memory training (R371, R387 step 11). -/
def bootOf (i : Instr) (a b : Boot) : Boot := match i with | .fwLoadCommit .. => bootAfter a b | _ => a

/-- Of fuses, power and bring-up a host command changes only what OPEN and FW_LOAD change (R338, R369, R371). -/
def keepHost (s : State) (i : Instr) (t : State) : State :=
  { t with
    fuses := burn s.fuses t.fuses
    sys := { s.sys with boot := bootOf i s.sys.boot t.sys.boot, keepDdr := t.sys.keepDdr } }

/-- A command that is heard has its effect, on the parts it can change; another changes nothing. -/
def act (s : State) (i : Instr) (heard : Bool) (f : State → State) : Host.Outcome State Fault Refusal :=
  .next (if heard then s.after (s.take (f s) i.writes) else s)

/-- As `act`, for what reaches the command plane of the host. -/
def actHost (s : State) (i : Instr) (heard : Bool) (f : State → State) : Host.Outcome State Fault Refusal :=
  .next (if heard then s.keepHost i (s.after (s.take (f s) i.writes)) else s)

/-- An empty queue: while clocks run, one period of ACLK passes, and nothing else happens (DESIGN CHOICE). -/
def tick (s : State) : State := if s.on then { s with aclk := s.aclk + 1 } else s

/-! ### Streams -/

/-- The physical unit a stream's engines belong to. -/
def streamUnit (s : State) : SRef → Nat × Nat
  | .f k | .b k => (UK_CORE, aget s.fp.coreBind k 0)
  | .u n => (UK_CAMBER, n)

/-- The unit that first writes poison in an attempt that has read none from memory (R402). -/
def noteWriter (before t : State) (unit : Nat × Nat) (ftile : Bool) : State :=
  if before.gate.wrote.isEmpty && !t.gate.wrote.isEmpty && t.gate.firstRead.isNone && t.gate.writer.isNone then
    { t with gate := { t.gate with writer := some (unit.1, unit.2, ftile) } }
  else t

/-- Instructions issued by F- and B-streams are sample events (R426). -/
def noteIssue (before t : State) (r : SRef) : State :=
  let n := (t.stream r).nextSeq - (before.stream r).nextSeq
  match r with | .f k => t.bump (.sample k) 0 n | .b k => t.bump (.sample k) 1 n | .u _ => t

/-- What is noted of a stream's command: the source of poison, and instructions issued. -/
def noted (s t : State) (r : SRef) : State := noteIssue s (noteWriter s t (s.streamUnit r) false) r

/-- A command of a stream. -/
def actStream (s : State) (i : Instr) (r : SRef) (f : State → State) : Host.Outcome State Fault Refusal :=
  s.act i (s.runs r) fun s => s.noted (f s) r

end State

end Sys2Proof.Machine
end

