-- ==== Sys2Proof/Machine/Host.lean ====
section
/-! DEFINITION. The acceptance of host commands: the ordered checks of R342, what the pier accepts at each stage of
bring-up, the log, and replies (R341 to R343, R347, R354, R357, R387, R397). -/

namespace Sys2Proof

def HostCmd.indirect (c : HostCmd) : Bool := Machine.bitOf c.flags 2
def HostCmd.wantNotify (c : HostCmd) : Bool := Machine.bitOf c.flags 3

/-- The header as a number, its tag zero (R341). -/
def HostCmd.header (c : HostCmd) (oc : Nat) : Nat :=
  c.version % 256 * 2 ^ 376 + c.flags % 256 * 2 ^ 368 + oc % 65536 * 2 ^ 352 + c.status % 65536 * 2 ^ 336 + c.session % 2 ^ 32 * 2 ^ 304
    + c.seq % 2 ^ 64 * 2 ^ 240 + c.cmdId % 2 ^ 32 * 2 ^ 208 + c.plen % 65536 * 2 ^ 192 + c.pier % 4096 * 2 ^ 180 + c.reserved % 2 ^ 52 * 2 ^ 128

namespace Machine

/-- A command past its checks: opcode, header, and the parameter block it carries or points to. -/
structure Cmd where
  oc : Nat
  hdr : HostCmd
  block : List Byte

/-- The block read as one little-endian number (R4). -/
def Cmd.v (x : Cmd) : Nat := leNat x.block
def Cmd.id (x : Cmd) : Nat := x.hdr.cmdId

/-- What running a command answers: status, result block of the reply, and result of the completion entry. -/
structure Ans where
  s : State
  status : Nat
  result : List Byte := []
  comp : Nat := 0

/-- Opcodes accepted without a session (R343). -/
def freeOp (oc : Nat) : Bool := oc == OC_HELLO || oc == OC_OPEN || oc == OC_ROLL_CALL

/-- Opcodes accepted before a bundle is loaded (R343). -/
def earlyOp (oc : Nat) : Bool := freeOp oc || [OC_CLOSE, OC_KEEPALIVE, OC_NET_CONFIG, OC_FW_LOAD, OC_STATUS_QUERY, OC_ABORT].contains oc

/-- Opcodes whose work is on the deck dies or in the memory behind them, and that stay pending through a compute reset
(R397). -/
def deckOp (oc : Nat) : Bool :=
  [OC_FW_REPLACE, OC_WEARLOG, OC_PLAN_LOAD, OC_PLAN_UPDATE, OC_PLAN_UNLOAD, OC_DESC_WRITE, OC_JOB_START, OC_SPAN_CREATE, OC_SPAN_DELETE, OC_SLOT_WRITE,
   OC_OPERATOR, OC_SYNC_SIGNAL, OC_FLOORPLAN_READ, OC_COUNTER_READ, OC_CLAMP_READ, OC_POISON_READ, OC_RETIRE_UNIT, OC_SNAPSHOT, OC_TRACE_CTL].contains oc

/-- Every opcode a host may send (R344). -/
def knownOp (oc : Nat) : Bool :=
  earlyOp oc || deckOp oc || [OC_REGION_OPEN, OC_REGION_CLOSE, OC_RING_SETUP, OC_QP_CONNECT, OC_JOB_ASSIGN, OC_SYNC_WAIT, OC_DRAIN_DETACH, OC_DEBUG_MODE].contains oc

/-- What the checks of R342 before the fields find, the first that fails deciding. -/
inductive Checked where
  /-- check 1: wrong version or length -/
  | malformed
  /-- no session is open, and the opcode needs one (R343) -/
  | noSession
  /-- check 2 or 3: wrong session or tag -/
  | unauthenticated
  /-- check 4 -/
  | duplicate (r : LogRec)
  /-- check 5 -/
  | sequence
  | passed
deriving DecidableEq, Repr

/-- Header fields outside their ranges that do not stop the command by themselves, and those that do (R341). -/
def headerClamps (it : Item) (c : HostCmd) (oc : Nat) : List ClampRec :=
  checkFields it (c.header oc) [
    { hi := 375, lo := 372, rule := rZero }, { hi := 367, lo := 352, rule := rNull knownOp }, { hi := 351, lo := 336, rule := rZero },
    { hi := 239, lo := 208, rule := rNull (· != EVENT_ID) }, { hi := 207, lo := 192, rule := rNull fun n => c.indirect || n ≤ 8192 },
    { hi := 179, lo := 128, rule := rZero }]

/-- The 8-byte clamp report header (R347). -/
def reportHeaderNat (total kept here : Nat) (truncated : Bool) : Nat :=
  hold32 total * 2 ^ 32 + min kept 65535 * 2 ^ 16 + here * 2 ^ 8 + b2n truncated * 2 ^ 7

namespace State

/-! ### The checks of R342 -/

/-- The parameter block a command has: its own bytes, or with INDIRECT the bytes its pointer names (R341). -/
def effective (s : State) (c : HostCmd) : List Byte := if c.indirect then s.data (leNat (c.block.take 8) % 2 ^ 48) c.plen else c.block

/-- The tag a command must carry: over the header with its tag zeroed, the pointer where there is one, then the block
(R342 check 3). -/
def wantTag (s : State) (c : HostCmd) (oc : Nat) (key : List Byte) : Nat :=
  leNat ((hmac key (natLE 48 (c.header oc) ++ (if c.indirect then c.block else []) ++ s.effective c)).take 16)

/-- Checks 2 and 3: the session a command names, and its tag. -/
def checkAuth (s : State) (c : HostCmd) (oc : Nat) : Checked :=
  if c.session == 0 then
    if freeOp oc then (if c.tag == 0 then .passed else .unauthenticated)
    else if s.host.session.isNone then .noSession else .unauthenticated
  else match s.host.session with
    | none => .unauthenticated
    | some x => if x.id == c.session && s.wantTag c oc x.key == c.tag then .passed else .unauthenticated

/-- Check 5: over UDP, above the last; in a ring, the next (R354). -/
def checkSeq (s : State) (c : HostCmd) (ring : Bool) : Bool :=
  if c.session == 0 then true
  else match s.host.session with
    | none => false
    | some x => if ring then c.seq == x.ringSeq else match x.seq with | some n => n < c.seq | none => true

/-- Checks 1 to 5 in order. -/
def checks (s : State) (c : HostCmd) (oc : Nat) (ring : Bool) : Checked :=
  if c.version != 1 || c.block.length != (if c.indirect then 8 else c.plen) then .malformed
  else match s.checkAuth c oc with
    | .passed =>
      match if c.cmdId == EVENT_ID then none else s.logOf c.cmdId with
      | some r => .duplicate r
      | none => if s.checkSeq c ring then .passed else .sequence
    | x => x

/-- A command accepted in a session takes its sequence number and resets the idle timer (R340, R342). -/
def takeSeq (s : State) (c : HostCmd) (ring : Bool) : State :=
  if c.session == 0 then s
  else { s with host := { s.host with session := s.host.session.map fun x =>
    { x with seq := if ring then x.seq else some c.seq, ringSeq := if ring then x.ringSeq + 1 else x.ringSeq } } }

/-! ### Replies (R347) -/

/-- Clamp entries of a command in the clamp store, oldest first. -/
def clampsOf (s : State) (cmd : Nat) : List ClampRec := (s.clamps.filter fun x => x.1 == cmd).map (·.2)

/-- A reply packet's bytes, tagged under a key where one is given. -/
def replyBytes (s : State) (key : Option (List Byte)) (c : HostCmd) (oc session status : Nat) (result : List Byte) (total : Nat) (cs : List ClampRec) : List Byte :=
  let here := min 8 cs.length
  let body := result ++ natLE 8 (reportHeaderNat total cs.length here (total > cs.length)) ++ (cs.take 8).flatMap fun x => x.bytes s.pierId
  let h := natLE 48 (headerNat 1 oc status session c.seq c.cmdId body.length s.pierId)
  (match key with | some k => (hmac k (h ++ body)).take 16 | none => List.replicate 16 0#8) ++ h.drop 16 ++ body

/-- A packet sent to the source of a command. -/
def answer (s : State) (c : HostCmd) (bytes : List Byte) : State := s.send (.packet c.port c.srcIp c.srcPort bytes)

/-- A reply to a failed check 2 or 3: a zero tag, at most 100 a second for each port (R342). -/
def authReply (s : State) (c : HostCmd) (oc : Nat) : State :=
  let recent := s.host.authReplies.filter fun x => s.aclk - x.2 < SECOND
  if (recent.filter fun x => x.1 == c.port).length ≥ 100 then { s with host := { s.host with authReplies := recent } }.bump .host HC_AUTH_FAIL
  else { s with host := { s.host with authReplies := recent ++ [(c.port, s.aclk)] } }.answer c (s.replyBytes none c oc c.session ST_AUTH [] 0 [])

def sessionKey (s : State) : Option (List Byte) := s.host.session.map (·.key)

/-- The entry a ring command that is not run leaves: its completion in the ring (R354). -/
def ringFail (s : State) (c : HostCmd) (oc status : Nat) : State :=
  s.cqPut (s.stamped { cmdId := c.cmdId, seq := c.seq, opcode := oc, status := some status, ring := true })

/-- The reply of a logged command: sent over UDP, and kept for a duplicate. -/
def replyLogged (s : State) (key : Option (List Byte)) (c : HostCmd) (oc session : Nat) (result : List Byte) (ring : Bool) : State :=
  match s.logOf c.cmdId with
  | none => s
  | some r =>
    let bs := s.replyBytes key c oc session (r.status.getD ST_PENDING) result r.clamps (s.clampsOf c.cmdId)
    let s1 := s.logMap c.cmdId fun r => { r with reply := bs }
    if ring then s1 else s1.answer c bs

/-! ### Acceptance (R343, R357, R387, R397) -/

/-- What becomes of an opcode at this stage: run, refused with a status, or left waiting. -/
inductive Stage where
  | run | refuse (status : Nat) | wait
deriving DecidableEq, Repr

def stageOf (s : State) (oc session : Nat) : Stage :=
  if oc == OC_ROLL_CALL && session == 0 && (s.plan.loaded || s.host.session.isSome) then .refuse ST_STATE
  else match s.sys.boot with
    | .testing => if oc == OC_HELLO then .run else .refuse ST_STATE
    | .linked | .training => if earlyOp oc then .run else .refuse ST_STATE
    | .memTest => if earlyOp oc then .run else .wait
    | .ready => if s.sys.computeReset && deckOp oc then .wait else .run
    | _ => .refuse ST_STATE

/-- The record with which a command is entered in the log. -/
def newRecord (c : HostCmd) (oc : Nat) (ring : Bool) : LogRec :=
  { cmdId := c.cmdId, seq := c.seq, opcode := oc, ring := ring, notify := c.wantNotify, port := c.port }

/-- A command whose outcome is settled at once: entered in the log, completed and answered. -/
def settle (s : State) (c : HostCmd) (oc status : Nat) (ring : Bool) : State :=
  ((s.logAdd (newRecord c oc ring)).finish c.cmdId status).replyLogged (if c.session == 0 then none else s.sessionKey) c oc c.session [] ring

/-- A command about to run: entered in the log, with the clamps of its header. -/
def begun (s : State) (c : HostCmd) (oc : Nat) (ring : Bool) (cs : List ClampRec) : State :=
  (s.logAdd (newRecord c oc ring)).reports cs c.cmdId

/-- What a command's answer leaves: its completion and its reply, or the reply PENDING. The reply to OPEN goes under the
new session, and the reply to CLOSE under the old. `s` is the state it began in. -/
def concluded (s : State) (c : HostCmd) (oc : Nat) (ring : Bool) (a : Ans) : State :=
  let s2 := if a.status == ST_PENDING then a.s else a.s.finish c.cmdId a.status a.comp
  let opened := oc == OC_OPEN && a.status == ST_DONE
  let key := if opened then a.s.sessionKey else if c.session == 0 then none else s.sessionKey
  let session := if opened then (match a.s.host.session with | some x => x.id | none => 0) else c.session
  s2.replyLogged key c oc session a.result ring

/-- A command run. -/
def runCmd (s : State) (c : HostCmd) (oc : Nat) (ring : Bool) (cs : List ClampRec) (body : Cmd → State → Ans) : State :=
  s.concluded c oc ring (body { oc := oc, hdr := c, block := s.effective c } (s.begun c oc ring cs))

/-- A command that waits for the end of bring-up or for rejoin: pending (R387, R397). -/
def waitCmd (s : State) (c : HostCmd) (oc : Nat) (ring : Bool) (cs : List ClampRec) : State :=
  let s1 := s.begun c oc ring cs
  let s2 : State := { s1 with host := { s1.host with waiting := s1.host.waiting ++ [(oc, c)] } }
  s2.replyLogged s.sessionKey c oc c.session [] ring

/-- A command past checks 1 to 5: the pier it names, its header fields, its stage, and room (R342 checks 6 and 7,
R357). -/
def dispatch (s : State) (c : HostCmd) (oc : Nat) (ring : Option Nat) (body : Cmd → State → Ans) : State :=
  let it : Item := match ring with | some i => { kind := 3, index := i } | none => { kind := 7, index := 0 }
  let key := if c.session == 0 then none else s.sessionKey
  let r := ring.isSome
  let cs := headerClamps it c oc
  let ptr := leNat (c.block.take 8)
  let bad :=
    if c.pier != 0xFFF && c.pier != s.pierId then [nullAt it 191 180 (c.header oc)]
    else if cs.any isNull then cs
    else if c.indirect && !(ptr < 2 ^ 48 && s.opened 1 ptr c.plen) then
      cs ++ [{ kind := it.kind, clamp := CL_NULL, widthM1 := 63, bitOff := 384, index := it.index, supplied := ptr }]
    else []
  if !bad.isEmpty then
    if c.cmdId == EVENT_ID then
      let s1 := s.reports bad c.cmdId
      if r then s1.ringFail c oc ST_CLAMPED else s1.answer c (s1.replyBytes key c oc c.session ST_CLAMPED [] bad.length bad)
    else
      (((s.logAdd (newRecord c oc r)).reports bad c.cmdId).finish c.cmdId ST_CLAMPED).replyLogged key c oc c.session [] r
  else match s.stageOf oc c.session with
    | .refuse st => s.settle c oc st r
    | .wait => if s.pendingCount ≥ 1024 then s.settle c oc ST_RESOURCE r else s.waitCmd c oc r cs
    | .run => if s.pendingCount ≥ 1024 then s.settle c oc ST_RESOURCE r else s.runCmd c oc r cs body

/-- A command packet (R342). -/
def accept (s : State) (oc : Nat) (c : HostCmd) (body : Cmd → State → Ans) : State :=
  match s.checks c oc false with
  | .malformed => s.bump .host HC_CMD_MALFORMED
  | .noSession => s.settle c oc ST_STATE false
  | .unauthenticated => s.authReply c oc
  | .duplicate r => s.answer c r.reply
  | .sequence => s.answer c (s.replyBytes s.sessionKey c oc c.session ST_AUTH [] 0 [])
  | .passed => (s.takeSeq c false).dispatch c oc none body

/-- A command of the submission ring (R354): a failed check consumes it and posts its completion. -/
def acceptRing (s : State) (oc : Nat) (c : HostCmd) (index : Nat) (body : Cmd → State → Ans) : State :=
  match s.checks c oc true with
  | .malformed =>
    (s.report { kind := 3, clamp := CL_NULL, widthM1 := 15, bitOff := 192, index := index, supplied := c.plen } c.cmdId).ringFail c oc ST_CLAMPED
  | .noSession | .unauthenticated | .sequence => s.ringFail c oc ST_AUTH
  | .duplicate r => s.cqPut r
  | .passed => (s.takeSeq c true).dispatch c oc (some index) body

end State

/-! ### Parameter blocks -/

/-- The item a parameter block is (R348). -/
def paramItem : Item := { kind := 0, index := 0 }

/-- The block's fields checked under R6 and told; a Null clamp makes the command a no-op. -/
def Cmd.fieldsThen (x : Cmd) (s : State) (fs : List Field) (k : State → Ans) : Ans :=
  let cs := checkFields paramItem x.v fs
  let s1 := s.reports cs x.id
  if cs.any State.isNull then { s := s1, status := ST_CLAMPED } else k s1

/-- A command that does nothing for a Null clamp of a field. -/
def Cmd.null (x : Cmd) (s : State) (hi lo : Nat) : Ans := { s := s.report (nullAt paramItem hi lo x.v) x.id, status := ST_CLAMPED }

/-- A destination field: where its bytes lie in an opened region with READ, and otherwise Null (R345). -/
def destRule (s : State) (n : Nat) : ClampRule := rNull fun a => s.opened 1 a n

end Machine

end Sys2Proof
end

