-- ==== Sys2Proof/Machine/Session.lean ====
section
/-! DEFINITION. Sessions, addresses, regions, rings, queue pairs, sync objects and the reads of the host's own log, counters
and clamps (R334 to R340, R344 to R353). -/

namespace Sys2Proof.Machine

/-- Counters of the power limiter and the thermal throttle, at the end of set 4 (R447). -/
abbrev GC_POWER : Nat := 4
abbrev GC_THERMAL : Nat := 5

/-- Microseconds in ACLK cycles. -/
abbrev USEC : Nat := 1050

/-- A bank that belongs to a slot, or to a camber unit: its word 15 tells whether counts were lost (R84, R85). -/
def Bank.slotBank : Bank → Bool
  | .drain .. | .atrest _ | .wire _ | .camberConv _ => true
  | _ => false

namespace State

/-! ### Identity and sessions (R337 to R340) -/

/-- The bundle is loaded once FW_LOAD has completed (R371). -/
def bundleLoaded (s : State) : Bool := s.fw.bundle.isSome && (s.sys.boot == .memTest || s.sys.boot == .ready)

/-- ASCII characters as a field, the first at the lowest address. -/
def asciiNat (bs : List Nat) : Nat := leNat (bs.map (BitVec.ofNat 8))

/-- "HM-S4100". -/
def ordering : List Nat := [0x48, 0x4D, 0x2D, 0x53, 0x34, 0x31, 0x30, 0x30]

/-- The identity block (R337). -/
def identity (s : State) : Nat :=
  s.fuses.serial % 2 ^ 64 * 2 ^ 960 + asciiNat ordering * 2 ^ 832 + 0xB1 * 2 ^ 824 + s.pierId % 4096 * 2 ^ 812
    + (if s.sys.boot == .testing then 0 else s.fp.gen % 65536) * 2 ^ 796 + b2n s.fuses.owner.isSome * 2 ^ 795 + b2n s.host.session.isSome * 2 ^ 794
    + b2n s.plan.loaded * 2 ^ 793 + b2n s.sys.retained * 2 ^ 792 + s.fuses.mac0 % 2 ^ 48 * 2 ^ 736 + s.fuses.mac1 % 2 ^ 48 * 2 ^ 688
    + (if s.bundleLoaded then (match s.fw.bundle with | some b => b.version | none => 0) else 0) % 2 ^ 32 * 2 ^ 656
    + s.fuses.owner.getD 0 % 2 ^ 256 * 2 ^ 400 + s.fuses.identHash % 2 ^ 256 * 2 ^ 144

/-- Bits of the random source, and the state with the next draw fresh. -/
def draw (s : State) (bits : Nat) : Nat × State := (Config.randomBits s.freeCtr % 2 ^ bits, { s with freeCtr := s.freeCtr + 1 })

def helloBody (_ : Cmd) (s : State) : Ans :=
  let d := s.draw 256
  let ch := natLE 32 d.1
  { s := { d.2 with host := { d.2.host with challenge := some (ch, s.aclk) } }, status := ST_DONE, result := natLE 128 s.identity ++ ch }

/-- What closing a session ends: host waits complete with ABORTED, then the key, regions, queue pairs and rings go. -/
def closeSession (s : State) : State :=
  let s1 := s.host.waits.foldl (fun t w => t.endWait w ST_ABORTED) s
  { s1 with host := { s1.host with session := none, regions := [], qps := [], ring := none } }

/-- Fields of the OPEN block (R339). -/
def openFields (s : State) : List Field := [
  { hi := 3367, lo := 3367, rule := fun v => if s.fuses.owner.isSome then rZero v else none },
  { hi := 3365, lo := 3365, rule := fun v => if s.sys.boot == .linked then none else rZero v },
  { hi := 3364, lo := 3353, rule := rSat 10 3600 }, { hi := 3224, lo := 3209, rule := rDflt (· ≥ 1) 0 }, { hi := 3208, lo := 3072, rule := rZero }]

/-- The owner key of an OPEN block: modulus and exponent, and the hash that binds them (R338). -/
def openKey (bs : List Byte) : Nat × Nat × Nat :=
  let m := (bs.drop 425).take 384
  let e := (bs.drop 421).take 4
  (beNat m, beNat e, beNat (sha256 (m ++ e)))

/-- Whether an OPEN's signature over the challenge verifies under the key it presents (R339). -/
def openVerifies (s : State) (ch bs : List Byte) : Bool :=
  let k := openKey bs
  pssVerify k.1 k.2.1 (sha256 (ch ++ natLE 8 s.fuses.serial ++ (bs.drop 384).take 425)) (bs.take 384)

/-- OPEN authenticates: a fresh challenge, a signature that verifies, and the bound owner's key, or a first key that asks
to be bound (R338, R339). -/
def openAllowed (s : State) (bs : List Byte) : Bool :=
  (match s.host.challenge with | some c => s.aclk - c.2 ≤ 10 * SECOND && s.openVerifies c.1 bs | none => false) &&
  (match s.fuses.owner with | some h => h == (openKey bs).2.2 | none => bitOf (leNat bs) 3367)

/-- The session an OPEN opens, and the wrapped key (R339 steps 4 and 5). -/
def openSession (s : State) (x : Cmd) : Ans :=
  let v := x.v
  let k := openKey x.block
  let s0 := if s.host.session.isSome then
      s.closeSession.bump .host HC_SUBMIT_DISCARDED (if s.host.ring.isSome then (s.sqTail + 2 ^ 32 - s.sqHead) % 2 ^ 32 else 0)
    else s
  let d1 := s0.draw 256
  let d2 := d1.2.draw 32
  let d3 := d2.2.draw 256
  let key := natLE 32 d1.1
  let id := d2.1 % (2 ^ 32 - 1) + 1
  let port := fld v 3224 3209
  let sess : Session := { id := id, key := key, idleS := max 10 (min 3600 (fld v 3364 3353))
                          notifyIp := (if fld v 3352 3225 == 0 then x.hdr.srcIp else fld v 3352 3225), notifyPort := (if port == 0 then x.hdr.srcPort else port) }
  let t := d3.2
  { s := { t with
      host := { t.host with session := some sess }
      fuses := { t.fuses with owner := (match t.fuses.owner with | some h => some h | none => some k.2.2) }
      sys := if t.sys.boot == .linked then { t.sys with keepDdr := bitOf v 3365 } else t.sys }
    status := ST_DONE
    result := natLE 4 id ++ natBE 384 (beNat (oaepEncrypt k.1 k.2.1 (natLE 32 d3.1) key)) }

def openBody (x : Cmd) (s : State) : Ans :=
  x.fieldsThen s s.openFields fun s =>
    let spent : State := { s with host := { s.host with challenge := none } }
    if s.host.session.isSome && !bitOf x.v 3366 then { s := spent, status := ST_STATE }
    else if !s.openAllowed x.block then { s := spent, status := ST_AUTH }
    else spent.openSession x

def closeBody (_ : Cmd) (s : State) : Ans := { s := s.closeSession, status := ST_DONE }

/-- KEEPALIVE: the idle timer has been reset with the command's acceptance (R340). -/
def keepaliveBody (_ : Cmd) (s : State) : Ans := { s := s, status := ST_DONE }

/-- The idle timeout of the open session passes (R340). -/
def idleTimeout (s : State) : State :=
  match s.host.session with
  | some _ => s.closeSession
  | none => s

/-! ### Addresses (R335, R336) -/

/-- NET_CONFIG: what it asks for takes effect once its reply has left (R335, R344). -/
def netBody (x : Cmd) (s : State) : Ans := { s := { s with host := { s.host with newNet := some x.v } }, status := ST_DONE }

/-- A static address replaces the leased one, whose lease is released. -/
def setAddr (s : State) (p v4 v6 vlan : Nat) : State :=
  let e := s.eth p
  let s1 := if v4 != 0 && e.v4 != 0 && !e.static4 then s.send (.release p false e.v4) else s
  let s2 := if v6 != 0 && e.v6 != 0 && !e.static6 then s1.send (.release p true e.v6) else s1
  s2.setEth p { e with v4 := if v4 == 0 then e.v4 else v4, static4 := e.static4 || v4 != 0, v6 := if v6 == 0 then e.v6 else v6
                       static6 := e.static6 || v6 != 0, vlan := if vlan == 0 then e.vlan else vlan }

/-- The configuration of an accepted NET_CONFIG put in force. -/
def applyNet (s : State) : State :=
  match s.host.newNet with
  | none => s
  | some v =>
    let s1 := (s.setAddr 0 (fld v 511 480) (fld v 447 320) (fld v 175 164)).setAddr 1 (fld v 479 448) (fld v 319 192) (fld v 163 152)
    { s1 with host := { s1.host with newNet := none, cmdPort := (if fld v 191 176 == 0 then s1.host.cmdPort else fld v 191 176)
                                     classes := if fld v 151 120 == 0 then s1.host.classes else fld v 151 120 } }

/-! ### Regions, rings and queue pairs (R344, R345, R349, R352, R353) -/

/-- End of the tier that holds an address. -/
def tierEnd (s : State) (a : Nat) : Nat := if isHbm a then RESERVE else DDR_BASE + s.ddrBytes

def regionBase (s : State) (a : Nat) : Bool := a % 4096 == 0 && s.window .host a

/-- Pages of a region, cut at the end of the tier that holds its base. -/
def regionPages (s : State) (a n : Nat) : Nat := max 1 (min (min n 536870912) ((s.tierEnd a - a) / 4096))

/-- The clamp of a page count: its range, and the tier's end where the base is good. -/
def pagesRule (s : State) (a : Nat) : ClampRule := fun n =>
  let m := if s.regionBase a then s.regionPages a n else max 1 (min n 536870912)
  if m == n then none else some (CL_SAT, m)

def regionFields (s : State) (a : Nat) : List Field := [
  { hi := 127, lo := 80, rule := rNull s.regionBase }, { hi := 79, lo := 50, rule := s.pagesRule a },
  { hi := 49, lo := 48, rule := rDflt (· ≥ 1) 3 }, { hi := 47, lo := 0, rule := rZero }]

/-- Lowest free region index; RING_SETUP's 0 and 1 come last. -/
def freeRegion (s : State) : Option Nat := ((List.range 254).map (· + 2) ++ [0, 1]).find? fun i => !s.host.regions.any fun r => r.1 == i

def putRegion (s : State) (i : Nat) (r : Region) : State := { s with host := { s.host with regions := aset s.host.regions i r } }

def regionOpenBody (x : Cmd) (s : State) : Ans :=
  let a := fld x.v 127 80
  x.fieldsThen s (s.regionFields a) fun s =>
    match s.freeRegion with
    | none => { s := s, status := ST_RESOURCE }
    | some i =>
      let d := s.draw 32
      let perm := fld x.v 49 48
      { s := d.2.putRegion i { base := a, len := 4096 * s.regionPages a (fld x.v 79 50), perm := if perm == 0 then 3 else perm, rkey := d.1 }
        status := ST_DONE, result := natLE 4 i ++ natLE 4 d.1 }

def regionCloseFields (s : State) : List Field :=
  [{ hi := 127, lo := 120, rule := rNull fun i => s.host.regions.any fun r => r.1 == i }, { hi := 119, lo := 0, rule := rZero }]

def regionCloseBody (x : Cmd) (s : State) : Ans :=
  let i := fld x.v 127 120
  x.fieldsThen s s.regionCloseFields fun s =>
    { s := { s with host := { s.host with regions := adel s.host.regions i } }, status := ST_DONE }

/-- Both rings empty: the four counters at 0. -/
def emptyRings (s : State) : State := [0, 0x40, 0x80, 0xC0].foldl (fun t o => t.writeNat (RING_AREA + o) 4 0) s

def ringFields : List Field := [{ hi := 127, lo := 124, rule := rSat 4 12 }, { hi := 123, lo := 120, rule := rSat 4 12 }, { hi := 119, lo := 0, rule := rZero }]

def ringSetupBody (x : Cmd) (s : State) : Ans :=
  x.fieldsThen s ringFields fun s =>
    if s.host.log.any fun r => r.ring && r.status.isNone then { s := s, status := ST_STATE }
    else
      let sq := max 4 (min 12 (fld x.v 127 124))
      let cq := max 4 (min 12 (fld x.v 123 120))
      let d1 := s.emptyRings.draw 32
      let d2 := d1.2.draw 32
      let t := (d2.2.putRegion 0 { base := RING_AREA, len := 4096, perm := 2, rkey := d1.1, base2 := SQ_BASE, len2 := 256 * 2 ^ sq }).putRegion 1
        { base := RING_AREA, len := 4096, perm := 1, rkey := d2.1, base2 := CQ_BASE, len2 := 64 * 2 ^ cq }
      { s := { t with host := { t.host with ring := some (sq, cq), session := t.host.session.map fun y => { y with ringSeq := 0 } } }
        status := ST_DONE, result := natLE 4 0 ++ natLE 4 d1.1 ++ natLE 4 1 ++ natLE 4 d2.1 }

/-- QP_CONNECT: at most 16 on the port it arrives on (R344, R365). -/
def qpBody (x : Cmd) (s : State) : Ans :=
  let p := x.hdr.port
  if (s.host.qps.filter fun q => q.port == p).length ≥ 16 then { s := s, status := ST_RESOURCE }
  else
    let d1 := s.draw 24
    let d2 := d1.2.draw 24
    { s := { d2.2 with host := { d2.2.host with qps := d2.2.host.qps ++ [{ port := p, qpn := d1.1, hostQpn := fld x.v 255 232 }] } }
      status := ST_DONE, result := natLE 4 d1.1 ++ natLE 4 d2.1 }

/-! ### Sync objects (R141, R142, R345) -/

/-- An addition of the host's: it holds at the maximum with ovf set, and is counted (R142). -/
def hostAdd (s : State) (id amount : Nat) : State :=
  let v := s.syncCount id + amount
  if v ≤ 0xFFFFFFFF then s.setSync id v
  else
    let a := syncAddr id + 4
    ((s.setSync id 0xFFFFFFFF).writeNat a 4 (setFld (s.nat a 4) 29 29 1)).bump .host HC_SYNC_OVERFLOW

def signalFields (s : State) (v : Nat) : List Field :=
  let room := 0xFFFFFFFF - s.syncCount (fld v 127 112)
  [{ hi := 127, lo := 112, rule := rNull fun i => s.syncMode i == 0 }, { hi := 111, lo := 96, rule := rZero },
   { hi := 95, lo := 64, rule := fun n => if n == 0 then some (CL_DEFAULT, 1) else if n > room then some (CL_SAT, room) else none },
   { hi := 63, lo := 0, rule := rZero }]

def signalBody (x : Cmd) (s : State) : Ans :=
  let id := fld x.v 127 112
  x.fieldsThen s (s.signalFields x.v) fun s =>
    { s := s.hostAdd id (max 1 (fld x.v 95 64)), status := ST_DONE }

def waitFields : List Field := [{ hi := 111, lo := 96, rule := rZero }, { hi := 63, lo := 32, rule := rSat 0 600000 }, { hi := 31, lo := 0, rule := rZero }]

def waitBody (x : Cmd) (s : State) : Ans :=
  let id := fld x.v 127 112
  let v := fld x.v 95 64
  x.fieldsThen s waitFields fun s =>
    if s.syncCount id ≥ v && !s.sys.computeReset then { s := s, status := ST_DONE, comp := s.syncCount id }
    else if s.host.waits.length ≥ 256 then { s := s, status := ST_RESOURCE }
    else { s := s.addWait { cmdId := x.id, id := id, value := v, timeoutMs := min 600000 (fld x.v 63 32) }, status := ST_PENDING }

/-- A host wait's timeout passes (R345). -/
def waitTimeout (s : State) (cmd : Nat) : State :=
  match s.host.waits.find? fun w => w.cmdId == cmd with
  | some w => if w.timeoutMs != 0 then s.endWait w ST_ABORTED else s
  | none => s

/-- A result written at a destination the host named; bytes that are read-only stay (R121, R345). -/
def hostPut (s : State) (a : Nat) (bs : List Byte) : State := s.writeBy .host a (bs.map fun b => (b, false))

/-! ### The floor plan, counters, clamps, the log and the poison log (R20, R345, R346, R348, R351, R355) -/

/-- A destination in [127:80] for `n` bytes. -/
def destFields (s : State) (n : Nat) : List Field := [{ hi := 127, lo := 80, rule := destRule s n }, { hi := 79, lo := 0, rule := rZero }]

def floorplanBody (x : Cmd) (s : State) : Ans :=
  x.fieldsThen s (s.destFields 21144) fun s =>
    { s := s.hostPut (fld x.v 127 80) s.floorReport, status := ST_DONE }

/-- Words of a unit that are counters, by bank and word. -/
def words (b : Bank) (n : Nat) : List (Bank × Nat) := (List.range n).map fun i => (b, i)

/-- Units of each counter set. -/
def setUnits : Nat → Nat
  | 0 => 12302 | 1 => 2048 | 2 => 2049 | 3 => 2049 | 4 => 13 | 5 => 2264 | 6 => 16 | 7 => 1 | 8 => 1 | 9 => 65 | 10 => 1 | _ => 0

/-- The counters of a unit of a set. -/
def setWords (set i : Nat) : List (Bank × Nat) :=
  match set with
  | 0 => if i < 12288 then
      let k := i / 6
      words (match i % 6 with | 0 => .drain k .f | 1 => .drain k .b0 | 2 => .drain k .b1 | 3 => .drain k .t | 4 => .atrest k | _ => .wire k) 16
    else if i < 12290 then words (.link (i - 12288)) 16 else words (.camberConv (i - 12290)) 16
  | 1 => words (.activity i .f) 8 ++ words (.activity i .b0) 8 ++ words (.activity i .b1) 8 ++ words (.activity i .t) 8 ++ words (.table i) 4
  | 2 => if i < 2048 then words (.attn i) 4 else words .page 9
  | 3 => if i < 2048 then words (.routing i) 6 else words .recv 1
  | 4 => if i < 12 then words (.camber i) 8 else words .gate 6
  | 5 => if i < 2176 then words (.memCore i) 7 else if i < 2244 then words (.memCluster (i - 2176)) 7
    else if i < 2256 then words (.memHbm (i - 2244)) 7 else words (.memDdr (i - 2256)) 7
  | 6 => words (.port i) 14
  | 7 => words .coll 6
  | 8 => words .hiding 6
  | 9 => if i < 64 then words (.obsSlot i) 3 else words .obsPier 2
  | 10 => words .host 6
  | _ => []

/-- A counter as the host reads it. -/
def counterWord (s : State) (x : Bank × Nat) : Nat :=
  if x.2 == 15 then b2n (s.trace.bankLost && x.1.slotBank && !s.trace.bankRead.contains x.1) else s.counter x.1 x.2

/-- Hottest of a list, 0 for none. -/
def hottest (l : List (Nat × Nat)) : Nat := l.foldl (fun m x => max m x.2) 0

/-- The four gauge words after the pier's counters of set 4 (R447): power, junction and outlet in 0.1 °C, VIN. -/
def gauges (s : State) : List Nat :=
  [s.sys.power.sum / max 1 s.sys.power.length, hottest s.sys.temps / 10, s.sys.outlet / 10, Config.vinMillivolts s.aclk % 2 ^ 32]

def unitBytesOf (s : State) (set i : Nat) : List Byte :=
  ((setWords set i).map s.counterWord).flatMap (natLE 4) ++ (if set == 4 && i == 12 then s.gauges.flatMap (natLE 4) else [])

/-- A counter cleared; what the attempt found is moved with it, so that its growth stands (R245, R402). -/
def clearCtr (s : State) (x : Bank × Nat) : State :=
  let v := s.counter x.1 x.2
  if x.2 == 15 then (if s.trace.bankLost && x.1.slotBank then { s with trace := { s.trace with bankRead := x.1 :: s.trace.bankRead.filter (· != x.1) } } else s)
  else if v == 0 then s
  else { s with ctr := aset s.ctr x 0, gate := { s.gate with ctr0 := aset s.gate.ctr0 x (aget s.gate.ctr0 x 0 - v) } }

/-- Units that COUNTER_READ reads: from the first, cut at the set's last. -/
def unitsRead (v : Nat) : List Nat :=
  let first := fld v 119 104
  (List.range (max 1 (min (min 4096 (fld v 103 88)) (setUnits (fld v 127 120) - first)))).map (first + ·)

def countersRead (s : State) (v : Nat) : List Byte := (unitsRead v).flatMap (s.unitBytesOf (fld v 127 120))

def counterFields (s : State) (v : Nat) : List Field :=
  let set := fld v 127 120
  [{ hi := 127, lo := 120, rule := rNull (· ≤ 10) }, { hi := 119, lo := 104, rule := rNull fun i => i < setUnits set || set > 10 },
   { hi := 103, lo := 88, rule := rSat 1 4096 }, { hi := 86, lo := 80, rule := rZero },
   { hi := 79, lo := 32, rule := destRule s (s.countersRead v).length }, { hi := 31, lo := 0, rule := rZero }]

def counterBody (x : Cmd) (s : State) : Ans :=
  let bs := s.countersRead x.v
  x.fieldsThen s (s.counterFields x.v) fun s =>
    let s1 := s.hostPut (fld x.v 79 32) bs
    { s := if bitOf x.v 87 then ((unitsRead x.v).flatMap (setWords (fld x.v 127 120))).foldl clearCtr s1 else s1, status := ST_DONE }

def inLog (s : State) (id : Nat) : Bool := id != EVENT_ID && (s.logOf id).isSome

/-- Clamp entries of a command from the first asked for, cut at the last. -/
def clampsRead (s : State) (v : Nat) : List Byte :=
  let cs := (s.clampsOf (fld v 127 96)).drop (fld v 47 32)
  (cs.take (max 1 (min (fld v 31 16) cs.length))).flatMap fun c => c.bytes s.pierId

def clampReadFields (s : State) (v : Nat) : List Field :=
  [{ hi := 127, lo := 96, rule := rNull s.inLog }, { hi := 95, lo := 48, rule := destRule s (s.clampsRead v).length },
   { hi := 31, lo := 16, rule := rSat 1 65535 }, { hi := 15, lo := 0, rule := rZero }]

def clampReadBody (x : Cmd) (s : State) : Ans :=
  let bs := s.clampsRead x.v
  x.fieldsThen s (s.clampReadFields x.v) fun s =>
    { s := s.hostPut (fld x.v 95 48) bs, status := ST_DONE }

def statusFields (s : State) : List Field := [{ hi := 127, lo := 96, rule := rNull s.inLog }, { hi := 95, lo := 0, rule := rZero }]

def statusBody (x : Cmd) (s : State) : Ans :=
  x.fieldsThen s s.statusFields fun s =>
    match s.logOf (fld x.v 127 96) with
    | some r => { s := s, status := ST_DONE, result := s.entryBytes r false }
    | none => { s := s, status := ST_DONE }

/-- The poison log: a header with the entries and those not kept, then 32-byte entries (R351). -/
def poisonBytes (s : State) : List Byte :=
  natLE 32 (s.host.poisonLog.length + s.host.poisonLost * 2 ^ 32) ++
  s.host.poisonLog.flatMap fun e => natLE 32 (e.1 % 2 ^ 48 * 2 ^ 208 + e.2.1 % 2 ^ 32 * 2 ^ 176 + e.2.2.1 % 2 ^ 24 * 2 ^ 152 + e.2.2.2 % 2 ^ 64 * 2 ^ 88)

def poisonReadBody (x : Cmd) (s : State) : Ans :=
  let bs := s.poisonBytes
  x.fieldsThen s (s.destFields bs.length) fun s =>
    let s1 := (s.hostPut (fld x.v 127 80) bs).writeNat (RING_AREA + 0x140) 8 0
    { s := { s1 with host := { s1.host with poisonLog := [], poisonLost := 0, poisonSeen := 0 } }, status := ST_DONE }

end State

end Sys2Proof.Machine
end

