-- ==== Sys2Proof/Machine/Firmware.lean ====
section
/-! DEFINITION. Firmware: the bundle and its checks, loading, replacement, watchdogs and the wear log's reading and
hand-back (R366 to R384). -/

namespace Sys2Proof.Machine

/-- Bytes of a chunk of FW_LOAD (R370). -/
abbrev FW_CHUNK : Nat := 8176

/-- Largest image of a class (R368). -/
def classMax : Nat → Nat
  | 1 => 0x200000 | 2 | 3 | 4 => 0x400000 | 5 => 0x40000 | 6 => 65536 | _ => 0

/-- A part of a byte string. -/
def slice (bs : List Byte) (off n : Nat) : List Byte := (bs.drop off).take n

/-- A manifest entry's fields (R368). -/
structure Manifest where
  cls : Nat
  version : Nat
  off : Nat
  len : Nat
  wdog : Nat
  crc : Nat
  sha : Nat
deriving DecidableEq, Repr

def Manifest.ofNat (v : Nat) : Manifest :=
  { cls := fld v 511 504, version := fld v 503 472, off := fld v 471 440, len := fld v 439 416, wdog := max 1 (min 10000 (fld v 415 402))
    crc := fld v 401 370, sha := fld v 369 114 }

/-- A bundle's item: the whole bundle, its fields told by their bit position in it (R369). -/
def bundleItem : Item := { kind := 0, index := 0 }

/-- Check 1: the header and manifest fields against their ranges (R369). -/
def bundleFields (bs : List Byte) : List ClampRec :=
  let h := leNat (slice bs 0 64)
  let ms := (List.range 6).map fun i => Manifest.ofNat (leNat (slice bs (64 + 64 * i) 64))
  let n := bs.length
  checkFields bundleItem h [
    { hi := 511, lo := 480, rule := rNull (· == 0x53544E42) }, { hi := 479, lo := 448, rule := rNull (· ≥ 1) }, { hi := 447, lo := 440, rule := rNull (· == 0xB1) },
    { hi := 439, lo := 432, rule := rNull (· == 6) }, { hi := 431, lo := 405, rule := rNull fun x => 4096 ≤ x && x ≤ 67108864 && x == n }, { hi := 382, lo := 0, rule := rZero }] ++
  (List.range 6).flatMap fun i =>
    let m := ms.getD i (Manifest.ofNat 0)
    checkFields bundleItem (leNat (slice bs (64 + 64 * i) 64)) [
      { hi := 511, lo := 504, rule := rNull fun c => 1 ≤ c && c ≤ 6 && (ms.filter fun y => y.cls == c).length == 1 },
      { hi := 471, lo := 440, rule := rNull fun o => o % 4096 == 0 && o ≥ 4096 && o + m.len + 384 ≤ n &&
          !((ms.zipIdx.filter fun y => y.2 != i).any fun y => State.overlaps (o, o + m.len) (y.1.off, y.1.off + y.1.len)) },
      { hi := 439, lo := 416, rule := rNull fun l => 1 ≤ l && l ≤ classMax m.cls && (m.cls != 6 || l == 65536) },
      { hi := 415, lo := 402, rule := fun w => if m.cls == 6 then none else rSat 1 10000 w }, { hi := 113, lo := 0, rule := rZero }] (512 * (i + 1))

/-- A failed check after the first, told as a Null clamp at a bit of the bundle. -/
def bundleFail (bit : Nat) : ClampRec := { kind := 0, clamp := CL_NULL, widthM1 := 63, bitOff := bit }

/-- What SEC finds of a bundle (R369): clamps and the failing check, and the images where every check passes. -/
def checkBundle (fuses : Fuses) (bs : List Byte) : List ClampRec × Option BundleSt :=
  let cs := bundleFields bs
  let h := leNat (slice bs 0 64)
  let slot := fld h 388 387
  let key := slice bs 448 388
  let ms := (List.range 6).map fun i => Manifest.ofNat (leNat (slice bs (64 + 64 * i) 64))
  if cs.any State.isNull then (cs, none)
  else if beNat (sha256 key) != fuses.romKeys.getD slot 0 || bitOf fuses.revoked slot then (cs ++ [bundleFail 3584], none)
  else if !pssVerify (beNat (key.take 384)) (beNat (key.drop 384)) (bs.take (bs.length - 384)) (bs.drop (bs.length - 384)) then (cs ++ [bundleFail 65535], none)
  else match ms.findIdx? fun m => beNat (sha256 (slice bs m.off m.len)) != m.sha with
    | some i => (cs ++ [bundleFail (512 * (i + 1) + 114)], none)
    | none => (cs, some {
        version := fld h 479 448, iface := fld h 404 389
        images := ms.map fun m => { cls := m.cls, version := m.version, wdogMs := m.wdog, crc := m.crc, bytes := slice bs m.off m.len } })

/-- Revocation fuses a checked bundle burns: slots below its own that it names. -/
def burned (bs : List Byte) : Nat := let h := leNat (slice bs 0 64); fld h 386 383 % 2 ^ fld h 388 387

namespace State

/-! ### Loading (R370 to R373) -/

def chunkCount (total : Nat) : Nat := cdiv total FW_CHUNK

/-- The part field of a FW_LOAD block. -/
def fwPart (x : Cmd) : Nat := fld (leNat (x.block.take 16)) 127 126

/-- FW_LOAD is accepted only before a bundle is loaded, and not while one is being loaded. -/
def fwOpen (s : State) : Bool := s.sys.boot == .linked

def fwBeginFields : List Field := [{ hi := 125, lo := 99, rule := rNull fun n => 4096 ≤ n && n ≤ 67108864 }, { hi := 98, lo := 0, rule := rZero }]

def fwBeginBody (x : Cmd) (s : State) : Ans :=
  let n := fld x.v 125 99
  x.fieldsThen s fwBeginFields fun s =>
    if !s.fwOpen then { s := s, status := ST_STATE }
    else { s := { s with fw := { s.fw with staging := some (n, []) } }, status := ST_DONE }

/-- Fields of DATA's first 16 bytes; the chunk's bytes follow. -/
def fwDataFields (s : State) : List Field :=
  let total := match s.fw.staging with | some g => g.1 | none => 67108864
  [{ hi := 125, lo := 112, rule := rNull (· < chunkCount total) }, { hi := 111, lo := 0, rule := rZero }]

def fwDataBody (x : Cmd) (s : State) : Ans :=
  let y : Cmd := { x with block := x.block.take 16 }
  let i := fld y.v 125 112
  y.fieldsThen s s.fwDataFields fun s =>
    match s.fw.staging with
    | none => { s := s, status := ST_STATE }
    | some g => if !s.fwOpen then { s := s, status := ST_STATE }
      else { s := { s with fw := { s.fw with staging := some (g.1, aset g.2 i (x.block.drop 16)) } }, status := ST_DONE }

/-- Chunks not staged whole: every chunk but the last carries 8,176 bytes (R370). -/
def missingChunks (g : Nat × List (Nat × List Byte)) : List Nat :=
  (List.range (chunkCount g.1)).filter fun i =>
    match aget? g.2 i with | some bs => bs.length != min FW_CHUNK (g.1 - FW_CHUNK * i) | none => true

def stagedBytes (g : Nat × List (Nat × List Byte)) : List Byte := (List.range (chunkCount g.1)).flatMap fun i => aget g.2 i []

/-- Watchdog periods of classes 1 to 5 from COMMIT, or from the manifest where a field is 0 (R374). -/
def loadPeriods (v : Nat) (b : BundleSt) : List (Nat × Nat) :=
  (List.range 5).map fun i =>
    let f := min 10000 (fld v (125 - 14 * i) (112 - 14 * i))
    (i + 1, if f == 0 then (match b.images.find? fun m => m.cls == i + 1 with | some m => m.wdogMs | none => 0) else f)

def versionOf (b : BundleSt) (cls : Nat) : Nat := match b.images.find? fun m => m.cls == cls with | some m => m.version | none => 0

/-- Processors of a class, as unit kind and physical index, ascending; class 6 stands for every sequencer. -/
def processors : Nat → List (Nat × Nat)
  | 1 => [(UK_ABUT, 0)]
  | 2 => [(UK_ABUT, 1), (UK_ABUT, 2)]
  | 3 => [(UK_ABUT, 3), (UK_ABUT, 4)]
  | 4 => (List.range 4).map fun d => (UK_DMP, d)
  | 5 => (List.range 68).map fun c => (UK_CCP, c)
  | _ => [(6, 0)]

/-- Units whose image did not complete: marked, and entered in the wear log (R372). -/
def loadFailures (s : State) (failed : List (Nat × Nat)) : State :=
  failed.foldl (fun t u =>
    if (u.1 == UK_CORE || u.1 == UK_CCP || u.1 == UK_ABUT) && t.unitGood u.1 u.2 && u.2 < unitCount u.1 then
      (t.markUnit u.1 u.2 2 2 UR_LOAD).wearAdd u.1 u.2 WE_TEST_BAD UR_LOAD 0
    else t) s

/-- Steps 2 to 6 of the load table, on bytes staged whole. `failed` are the units whose image did not complete. -/
def fwCommitLoad (s : State) (x : Cmd) (failed : List (Nat × Nat)) (bs : List Byte) : Ans :=
  let k := checkBundle s.fuses bs
  let s1 := s.reports k.1 x.id
  match k.2 with
  | none => { s := s1, status := ST_AUTH }
  | some b =>
    let s2 : State := { s1 with fuses := { s1.fuses with revoked := s1.fuses.revoked ||| burned bs } }
    if failed.any (fun u => u.1 == UK_DMP) || (List.range 4).any (fun d => !s.unitGood UK_DMP d) then { s := s2, status := ST_UNRECOVERABLE }
    else
      let s3 := s2.loadFailures failed
      let halves := [1, 2, 3, 4].any fun i => !s3.unitGood UK_ABUT i
      { s := { s3.bindAll with
          sys := { s3.sys with boot := .training }
          fw := { s3.fw with bundle := some b, loadCmd := some x.id, degraded := !failed.isEmpty || halves, periods := loadPeriods x.v b
                             versions := (List.range 6).flatMap fun i => (processors (i + 1)).map fun p => (p, versionOf b (i + 1)) } }
        status := ST_PENDING }

def fwCommitFields : List Field :=
  ((List.range 5).map fun i => ({ hi := 125 - 14 * i, lo := 112 - 14 * i, rule := rSat 0 10000 } : Field)) ++ [{ hi := 55, lo := 0, rule := rZero }]

def fwCommitBody (failed : List (Nat × Nat)) (x : Cmd) (s : State) : Ans :=
  x.fieldsThen s fwCommitFields fun s =>
    match s.fw.staging with
    | none => { s := s, status := ST_STATE }
    | some g =>
      if !s.fwOpen then { s := s, status := ST_STATE }
      else
        let ms := missingChunks g
        if !ms.isEmpty then
          { s := s, status := ST_STATE, result := natLE 4 ms.length ++ natLE 4 (ms.headD 0), comp := ms.length % 2 ^ 32 + ms.headD 0 * 2 ^ 32 }
        else s.fwCommitLoad x failed (stagedBytes g)

/-! ### Replacement (R378 to R380) -/

def replaceFields (s : State) (v : Nat) : List Field :=
  let po := bitOf v 34
  [{ hi := 127, lo := 124, rule := rNull fun c => 2 ≤ c && c ≤ 6 }, { hi := 48, lo := 35, rule := rSat 0 10000 }, { hi := 33, lo := 0, rule := rZero }] ++
  (if po then [] else [{ hi := 123, lo := 76, rule := rNull fun a => s.opened 1 a (fld v 75 49) }, { hi := 75, lo := 49, rule := rNull fun n => 4096 ≤ n && n ≤ 67108864 }])

/-- The period of a class changed at once; 0 leaves it (R374, R378). -/
def setPeriod (s : State) (v : Nat) : State :=
  let w := min 10000 (fld v 48 35)
  if w == 0 then s else { s with fw := { s.fw with periods := aset s.fw.periods (fld v 127 124) w } }

def periodsBody (x : Cmd) (s : State) : Ans := x.fieldsThen s (s.replaceFields x.v) fun s => { s := s.setPeriod x.v, status := ST_DONE }

/-- A processor restarts with an image: its version, and the wear log's record of it (R379, R382). -/
def restartWith (s : State) (p : Nat × Nat) (version : Nat) : State :=
  { s with fw := { s.fw with versions := aset s.fw.versions p version } }.wearAdd p.1 p.2 WE_VERSION 0 version

/-- The good processors of a class. -/
def goodProcessors (s : State) (cls : Nat) : List (Nat × Nat) := (processors cls).filter fun p => s.unitGood p.1 p.2

def replaceBody (x : Cmd) (s : State) : Ans :=
  x.fieldsThen s (s.replaceFields x.v) fun s =>
    let bs := s.data (fld x.v 123 76) (fld x.v 75 49)
    let k := checkBundle s.fuses bs
    let s1 := s.reports k.1 x.id
    match k.2, s.fw.bundle with
    | some b, some old =>
      let cls := fld x.v 127 124
      match b.images.find? fun m => m.cls == cls with
      | none => { s := s1, status := ST_STATE }
      | some im =>
        let s2 : State := { s1 with fuses := { s1.fuses with revoked := s1.fuses.revoked ||| burned bs } }
        if b.iface != old.iface || s.fw.replace.isSome then { s := s2, status := ST_STATE }
        else
          let s3 := s2.setPeriod x.v
          if cls == 6 then
            if s.job.running then { s := { s3 with fw := { s3.fw with replace := some { cmdId := x.id, image := im, first := (6, 0) } } }, status := ST_PENDING }
            else { s := { s3 with fw := { s3.fw with versions := aset s3.fw.versions (6, 0) im.version } }, status := ST_DONE, comp := im.version }
          else match s3.goodProcessors cls with
            | [] => { s := s3, status := ST_DONE, comp := im.version }
            | p :: _ =>
              let r : ReplaceSt := { cmdId := x.id, image := im, first := p, before := s3.fw.versions }
              let s4 : State := { s3 with fw := { s3.fw with replace := some r } }
              { s := s4.restartWith p im.version, status := ST_PENDING }
    | _, _ => { s := s1, status := ST_AUTH }

/-- The first processor's probation of 10 s has passed: the others restart in ascending order, and FW_REPLACE completes
with the version now running (R379). -/
def probationEnd (s : State) : State :=
  match s.fw.replace with
  | some r =>
    if r.image.cls == 6 then s
    else
      let s1 := ((s.goodProcessors r.image.cls).filter (· != r.first)).foldl (fun t p => t.restartWith p r.image.version) s
      let swap (b : BundleSt) : BundleSt := { b with images := b.images.map fun m => if m.cls == r.image.cls then r.image else m }
      let s2 : State := { s1 with fw := { s1.fw with replace := none, bundle := s1.fw.bundle.map swap } }
      s2.finish r.cmdId ST_DONE r.image.version
  | none => s

/-- A FW_REPLACE given up: between restarts the processors already restarted keep the new image, and are listed (R381);
before the held boundary nothing has changed. -/
def abortReplace (s : State) (r : ReplaceSt) : State :=
  { s with fw := { s.fw with replace := none } }.finish r.cmdId ST_ABORTED (if r.image.cls == 6 then 0 else 2 ^ (processors r.image.cls).findIdx (· == r.first))

/-! ### Watchdogs (R374 to R377) -/

/-- Class of a firmware processor. -/
def classOf (kind i : Nat) : Nat :=
  if kind == UK_ABUT then (if i == 0 then 1 else if i ≤ 2 then 2 else 3) else if kind == UK_DMP then 4 else if kind == UK_CCP then 5 else 0

/-- A processor that runs its image under a watchdog: not retired, and not held in reset with the deck dies. -/
def watched (s : State) (kind i : Nat) : Bool :=
  classOf kind i != 0 && i < unitCount kind && s.unitGood kind i && s.fw.bundle.isSome && (kind == UK_ABUT || s.computing || s.sys.boot == .training || s.sys.boot == .memTest)

/-- The other processor of a pair of HIPs or LMPs. -/
def partner (i : Nat) : Nat := (i - 1) / 2 * 2 + 1 + i % 2

/-- The third expiry within 600 s (R377). -/
def escalateWatchdog (s : State) (kind i : Nat) : State :=
  let lostPier : State := (s.fault s.job.decided FB_UNIT).declareLost s.pierId
  if kind == UK_DMP || (kind == UK_ABUT && i == 0) then lostPier
  else if kind == UK_ABUT then
    if s.unitGood UK_ABUT (partner i) then (s.queueRetire { kind := kind, index := i, reason := UR_WATCHDOG }).1 else lostPier
  else
    let r := (s.fault s.job.decided FB_UNIT).queueRetire { kind := kind, index := i, reason := UR_WATCHDOG }
    if r.2 then r.1.declareLost s.pierId else r.1

/-- An expiry counted toward escalation (R377). -/
def countExpiry (s : State) (kind i : Nat) : State :=
  let ts := ((aget s.fw.expiries (kind, i) []).filter fun t => s.aclk - t ≤ 600 * SECOND) ++ [s.aclk]
  let s1 : State := { s with fw := { s.fw with expiries := aset s.fw.expiries (kind, i) (if ts.length ≥ 3 then [] else ts) } }
  if ts.length ≥ 3 then s1.escalateWatchdog kind i else s1

/-- A watchdog expires: the processor alone restarts from its image and its working storage. In probation it goes back to
the old image, and its FW_REPLACE is refused (R374, R377, R379). -/
def watchdog (s : State) (kind i : Nat) : State :=
  if !s.watched kind i then s
  else
    let s1 := s.traceDevice TR_RESTART s.job.decided (kind * 2 ^ 24 + i * 2 ^ 12) 0
    match s.fw.replace with
    | some r =>
      if r.first == (kind, i) then
        { s1 with fw := { s1.fw with replace := none, versions := r.before } }.finish r.cmdId ST_STATE
      else s1.countExpiry kind i
    | none => s1.countExpiry kind i

/-! ### The wear log (R382 to R384) -/

end State

/-- A wear log entry's 32 bytes (R382). -/
def WearRec.toNat (w : WearRec) : Nat :=
  w.kind % 256 * 2 ^ 248 + w.index % 4096 * 2 ^ 236 + w.event % 256 * 2 ^ 228 + w.reason % 256 * 2 ^ 220 + w.start % 2 ^ 32 * 2 ^ 188 + w.step % 2 ^ 64 * 2 ^ 124
    + w.value % 2 ^ 64 * 2 ^ 60

def WearRec.ofNat (v : Nat) : WearRec :=
  { kind := fld v 255 248, index := fld v 247 236, event := fld v 235 228, reason := fld v 227 220, start := fld v 219 188, step := fld v 187 124, value := fld v 123 60 }

/-- The signature of the device identity key over a log's bytes before it (R382). -/
def logSignature (bs : List Byte) : List Byte := natBE 384 (Config.identitySignature (beNat (sha256 bs)))

namespace State

/-- The wear log as it is signed and written (R382). -/
def wearBytes (s : State) : List Byte :=
  let h := s.fuses.serial % 2 ^ 64 * 2 ^ 448 + (match s.fw.bundle with | some b => b.version | none => 0) % 2 ^ 32 * 2 ^ 416 + s.fw.wearStart % 2 ^ 32 * 2 ^ 384
    + s.fw.wear.length % 2 ^ 17 * 2 ^ 367 + hold32 s.fw.wearDropped * 2 ^ 335
  let b := natLE 64 h ++ s.fw.wear.flatMap fun w => natLE 32 w.toNat
  b ++ logSignature b

def wearDir (x : Cmd) : Nat := fld x.v 127 127

def wearReadFields (s : State) (v : Nat) : List Field :=
  let all := s.wearBytes.length
  [{ hi := 126, lo := 79, rule := destRule s (min (fld v 78 51) all) }, { hi := 78, lo := 51, rule := fun n => if n > all then some (CL_SAT, all) else none },
   { hi := 50, lo := 0, rule := rZero }]

def wearReadBody (x : Cmd) (s : State) : Ans :=
  let bs := s.wearBytes.take (fld x.v 78 51)
  x.fieldsThen s (s.wearReadFields x.v) fun s => { s := s.hostPut (fld x.v 126 79) bs, status := ST_DONE }

/-- Daily samples that a handed-back log's TREND entries hold, by monitor and unit (R384, R421). -/
def trendSeed (ws : List WearRec) : List ((Nat × Nat) × List (Nat × Nat)) :=
  (ws.filter fun w => w.event == WE_TREND).foldl (fun a w =>
    let k := (fld w.value 63 60, w.index)
    aset a k (aget a k [] ++ [(fld w.value 59 44, fld w.value 43 24)])) []

/-- An accepted log taken up: its entries first, its start number passed, its rows repaired, its trends as history
(R384). -/
def takeLog (s : State) (h : Nat) (ws : List WearRec) : State :=
  let start := fld h 415 384 + 1
  let mine := s.fw.wear.map fun w => { w with start := start }
  let s1 : State := { s with
    fw := { s.fw with wear := [], wearStart := start, wearDropped := hold32 (s.fw.wearDropped + fld h 366 335), handedBack := true }
    age := { s.age with samples := trendSeed ws } }
  ((ws.filter fun w => w.event != WE_HBM_ROW) ++ mine).foldl wearPut s1

def handBackFields (s : State) (v : Nat) : List Field := [{ hi := 126, lo := 79, rule := destRule s (fld v 78 51) }, { hi := 50, lo := 0, rule := rZero }]

def handBackBody (x : Cmd) (s : State) : Ans :=
  let a := fld x.v 126 79
  let n := fld x.v 78 51
  x.fieldsThen s (s.handBackFields x.v) fun s =>
    let bs := s.data a n
    let h := leNat (bs.take 64)
    let m := fld h 383 367
    let body := bs.take (64 + 32 * m)
    if s.plan.loaded || s.fw.handedBack then { s := s, status := ST_STATE }
    else if fld h 511 448 != s.fuses.serial % 2 ^ 64 || m > 65536 || slice bs (64 + 32 * m) 384 != logSignature body then { s := s, status := ST_AUTH }
    else { s := s.takeLog h ((List.range m).map fun i => WearRec.ofNat (leNat (slice bs (64 + 32 * i) 32))), status := ST_DONE }

end State

end Sys2Proof.Machine
end

