-- ==== Sys2Proof/Machine/Jobs.lean ====
section
/-! DEFINITION. Plans, jobs, slots and retirements at the host's command (R169, R170, R344, R345, R358 to R361). -/

namespace Sys2Proof.Machine

namespace State

/-! ### Plans (R358, R359) -/

def planLoadFields (s : State) : List Field := [{ hi := 127, lo := 80, rule := rNull fun a => s.opened 1 a 64 }]

def planLoadBody (x : Cmd) (s : State) : Ans :=
  let a := fld x.v 127 80
  if s.plan.loaded then { s := s, status := ST_STATE }
  else
    x.fieldsThen s s.planLoadFields fun s =>
      let r := s.planLoad a x.id
      let t := r.1
      { s := if r.2.1 == ST_DONE then { t with falsework := { t.falsework with due := true, count := 0, resumeAt := none, dispute := none } } else t
        status := r.2.1, comp := r.2.2 }

/-- The section list a block names (R359). -/
def listFields (s : State) (x : Cmd) : List Field := [
  { hi := 127, lo := 80, rule := rNull fun a => aligned 16 a && s.opened 1 a (16 * fld x.v 79 60) }, { hi := 79, lo := 60, rule := rNull (· ≥ 1) }]

/-- PLAN_UPDATE: at the next boundary of a running job, and at once outside one. -/
def planUpdateBody (x : Cmd) (s : State) : Ans :=
  let a := fld x.v 127 80
  let n := fld x.v 79 60
  if !s.plan.loaded then { s := s, status := ST_STATE }
  else
    x.fieldsThen s (s.listFields x) fun s =>
      if s.job.running then { s := { s with gate := { s.gate with update := s.gate.update ++ [(x.id, a, n)] } }, status := ST_PENDING }
      else let r := s.planUpdate a n x.id; { s := r.1, status := r.2.1, comp := r.2.2 }

/-- PLAN_UNLOAD: the objects that plans have written stay known for their resets. -/
def planUnloadBody (_ : Cmd) (s : State) : Ans :=
  if s.job.running || s.job.starting || !s.plan.loaded then { s := s, status := ST_STATE }
  else { s := { s with plan := { syncs := s.plan.syncs }, falsework := { s.falsework with resumeAt := none } }, status := ST_DONE }

/-- One section of DESC_WRITE: into the plan descriptor area outside read-only regions, or a Null clamp (R344, R359). -/
def descSection (cmd : Nat) (s : State) (y : Section) : State :=
  let it : Item := { kind := 6, index := y.index }
  let inArea := PLAN_AREA ≤ y.dst && y.dst + y.len ≤ PLAN_AREA_END
  let cs := s.sectionClamps true y ++ (if inArea || !s.sectionPlace y.dst y.len then [] else [nullAt it 127 80 y.word])
  let s1 := s.reports cs cmd
  if cs.any isNull then s1 else s1.copySection s.localGib y

def descWriteBody (x : Cmd) (s : State) : Ans :=
  x.fieldsThen s (s.listFields x) fun s =>
    { s := (s.readSections (fld x.v 127 80) (fld x.v 79 60)).foldl (descSection x.id) s, status := ST_DONE }

/-! ### Starting a job (R360) -/

/-- What this pier's plan puts into the exchange. -/
def ownRecord (s : State) : JobRecord :=
  { planId := s.plan.planId, seed := s.plan.seed, steps := s.plan.steps, hangMs := s.plan.hangMs, debug := s.plan.debug, members := s.plan.members
    spares := s.plan.spares, sections := s.plan.sections, owner := s.fuses.owner.getD 0 }

/-- A record enters the exchange; the first one starts its time. -/
def putRecord (s : State) (pier : Nat) (r : JobRecord) : State :=
  { s with job := { s.job with stepAt := if s.job.records.isEmpty then s.aclk else s.job.stepAt, records := aset s.job.records pier r } }

/-- The exchange ends on this pier with a refusal; the completion names a pier. -/
def refuseStart (s : State) (status pier : Nat) : State :=
  let s1 := match s.job.cmdId with | some c => if s.job.starting then s.finish c status pier else s | none => s
  { s1 with job := { s1.job with records := [], starting := false, cmdId := if s.job.starting then none else s1.job.cmdId } }

/-- A refusal that every pier of the job hears. -/
def refuseJob (s : State) (status pier : Nat) : State := (s.sendCtrlAll s.plan.piers (.jobEnd status pier)).refuseStart status pier

/-- The first step begins here (R220, R360, R412, R419). -/
def beginJob (s : State) : State :=
  let first := s.falsework.resumeAt.getD (fld s.camberCtl 511 448)
  let steps := match s.falsework.resumeAt with
    | some g => let k := fld s.camberCtl 511 448; if s.plan.steps == 0 then 0 else s.plan.steps - (g - k)
    | none => s.plan.steps
  let s1 : State := { s with
    job := { running := true, startStep := first, decided := first, steps := steps, cmdId := s.job.cmdId, stepAt := s.aclk }
    gate := { s.gate with voted := none, votes := [], arrived := none, lastFail := none, failFaults := 0, returned := none, abort := false, hangAsk := none }
    plan := { s.plan with leaf := s.topLeaf, subst := [] }
    falsework := { s.falsework with due := true, count := 0, resumeAt := none, lost := [], asked := none, ready := [] }
    streams := s.activeStreams.map fun r => (r, { step := first, nextSeq := (s.stream r).nextSeq })
    trestle := [], layers := [], kernels := []
    coll := { s.coll with started := false, pos := 0, step := 0, runs := s.coll.runs.filter (·.op.isSome), early := [] } }
  s1.openAttempt

/-- Records that differ from the lowest member's in the owner binding, or in anything else: the first by pier. -/
def firstDiffers (s : State) (f : JobRecord → JobRecord → Bool) : Option Nat :=
  let rs := s.job.records.mergeSort fun a b => a.1 ≤ b.1
  match (s.plan.members.head?).bind fun m => aget? rs m with
  | none => none
  | some a => (rs.find? fun b => f a b.2).map (·.1)

/-- Once the record of every pier the job owns is here, the start is refused or the job begins. -/
def settleStart (s : State) : State :=
  if !s.job.starting || !s.plan.piers.all (fun p => s.job.records.any (·.1 == p)) then s
  else match s.firstDiffers fun a b => a.owner != b.owner with
    | some p => s.refuseJob ST_AUTH p
    | none => match s.firstDiffers fun a b => a != { b with owner := a.owner } with
      | some p => s.refuseJob ST_STATE p
      | none => s.beginJob

def jobStartBody (x : Cmd) (s : State) : Ans :=
  if !s.plan.loaded || s.job.running || s.job.starting then { s := s, status := ST_STATE }
  else
    let s1 := s.putRecord s.pierId s.ownRecord
    let s2 := { s1 with job := { s1.job with starting := true, cmdId := some x.id } }.sendCtrlAll s.plan.piers (.jobStart s.pierId s.ownRecord)
    { s := s2.settleStart, status := ST_PENDING }

/-- A pier's JOB_START has not come within the hang interval of the first (R360). -/
def startTimeout (s : State) : State :=
  match s.plan.piers.find? fun p => !s.job.records.any (·.1 == p) with
  | some p => if s.job.starting then s.refuseJob ST_STATE p else s
  | none => s

/-! ### A pier that joins the job (R361) -/

/-- Whether this pier can join a job: a session under the same owner binding, and the job's plan. -/
def canJoin (s : State) (planId seed owner : Nat) : Bool :=
  s.host.session.isSome && s.fuses.owner == some owner && s.plan.loaded && s.plan.planId == planId && s.plan.seed == seed

/-- A pier is known to be able to join: at the next boundary of a running job, and at once outside one. -/
def assignPier (s : State) (cmd pier : Nat) : State :=
  let s1 := (s.sendCtrlAll s.plan.piers (.jobAssign pier)).sendCtrlAll [pier] (.jobJoin s.ownRecord s.job.startStep s.job.decided)
  let s2 : State := { s1 with gate := { s1.gate with assign := s1.gate.assign ++ [(cmd, pier)] } }
  if s2.job.running then s2 else s2.assignBoundary

def jobAssignFields : List Field := [{ hi := 127, lo := 116, rule := rNull (· < 2048) }, { hi := 115, lo := 0, rule := rZero }]

def jobAssignBody (x : Cmd) (s : State) : Ans :=
  let p := fld x.v 127 116
  x.fieldsThen s jobAssignFields fun s =>
    if !s.plan.loaded || (s.net.maps.all (·.pier != p) && p != s.pierId) then { s := s, status := ST_STATE }
    else if p == s.pierId then { s := s, status := if s.canJoin s.plan.planId s.plan.seed (s.fuses.owner.getD 0) then ST_DONE else ST_STATE }
    else
      let s1 : State := { s with gate := { s.gate with assignAsk := s.gate.assignAsk ++ [(x.id, p)] } }
      { s := s1.sendCtrl p (.assignQuery s.pierId s.plan.planId s.plan.seed (s.fuses.owner.getD 0)), status := ST_PENDING }

/-- The answer of a pier asked. -/
def assignAnswer (s : State) (pier : Nat) (ok : Bool) : State :=
  (s.gate.assignAsk.filter fun a => a.2 == pier).foldl (fun t a => if ok then t.assignPier a.1 pier else t.finish a.1 ST_STATE)
    { s with gate := { s.gate with assignAsk := s.gate.assignAsk.filter fun a => a.2 != pier } }

/-- This pier joins a job without a leaf. -/
def joinJob (s : State) (r : JobRecord) (start decided : Nat) : State :=
  if s.job.running || !s.plan.loaded || r.planId != s.plan.planId then s
  else
    let spares := r.spares.filter (· != s.pierId) ++ [s.pierId]
    { s with
      plan := { s.plan with members := r.members, spares := spares, piers := r.members ++ spares }
      job := { running := true, startStep := start, decided := decided, steps := r.steps, cmdId := s.job.cmdId, stepAt := s.aclk } }

/-! ### Sequence slots and units (R169, R170, R344) -/

/-- SLOT_WRITE's block: the descriptor in [511:0] and the slot number in [527:512]. -/
def slotFields (s : State) (v : Nat) : List Field :=
  let total := min 2097152 (fld v 511 490)
  let first := min 2097151 (fld v 489 468)
  let most := min (total - min total first) (128 * (fld v 412 399 + 1))
  let others := (s.openSlots.filter fun n => n != fld v 527 512 && (s.seqSlot n).anchored).length
  [{ hi := 527, lo := 512, rule := rNull (· < 256) }, { hi := 511, lo := 490, rule := rSat 0 2097152 }, { hi := 489, lo := 468, rule := rSat 0 2097151 },
   { hi := 467, lo := 446, rule := rSat 0 most }, { hi := 445, lo := 425, rule := rZero }, { hi := 398, lo := 398, rule := rDflt (fun x => x == 0 || others < 16) 0 },
   { hi := 395, lo := 385, rule := rSat 0 1024 }, { hi := 384, lo := 337, rule := fun a => if fld v 395 385 == 0 then none else (rNull fun a => aligned 4 a && s.mapped a) a },
   { hi := 336, lo := 289, rule := fun a => if bitOf v 288 then (rNull s.mapped) a else none }, { hi := 287, lo := 0, rule := rZero }]

/-- A value with the clamps of its fields applied. -/
def applyClamps (v : Nat) (fs : List Field) : Nat :=
  fs.foldl (fun w f => match f.rule (fld v f.hi f.lo) with | some u => setFld w f.hi f.lo u.2 | none => w) v

def slotWriteBody (x : Cmd) (s : State) : Ans :=
  let fs := s.slotFields x.v
  let n := fld x.v 527 512
  let d := applyClamps x.v fs % 2 ^ 512
  let q := SeqSlot.ofNat d
  let old := s.seqSlot n
  let fresh := q.total != 0 && (old.total == 0 || old.layers != q.layers || old.kvh != q.kvh || old.nblk != q.nblk)
  x.fieldsThen s fs fun s =>
    let run := if fresh then s.freeRun q.entries else none
    if fresh && (q.entries > 1048576 || run.isNone) then { s := s, status := ST_RESOURCE }
    else
      let w : SlotWrite := { slot := n, desc := d, run := run.map fun a => (a, q.entries), due := !s.job.running }
      let s1 : State := { s with host := { s.host with slotWrites := (s.host.slotWrites.filter fun y => y.slot != n) ++ [w] } }
      { s := s1.settleSlots, status := ST_DONE }

def retireFields (v : Nat) : List Field :=
  let k := fld v 127 120
  [{ hi := 127, lo := 120, rule := rNull fun k => 1 ≤ k && k ≤ 15 }, { hi := 119, lo := 108, rule := rNull fun i => i < unitCount k || k == 0 || k > 15 },
   { hi := 107, lo := 0, rule := rZero }]

/-- RETIRE_UNIT: at the next boundary of a running job, and at once outside one, reason HOST_REQUEST. -/
def retireUnitBody (x : Cmd) (s : State) : Ans :=
  let k := fld x.v 127 120
  let i := fld x.v 119 108
  x.fieldsThen s (retireFields x.v) fun s =>
    let r := s.queueRetire { kind := k, index := i, reason := UR_HOST }
    { s := if r.2 then r.1.declareLost r.1.pierId else r.1, status := ST_DONE }

/-! ### Spans (R22 to R25, R29, R460) -/

/-- Member words of a list as far as a descriptor's count reads them. -/
def listed (s : State) (d : SpanDesc) : List (Nat × Handle) :=
  (List.range (if d.placement == .block then 1 else d.count)).map fun i => (d.memberList + 4 * i, Handle.ofNat (s.nat (d.memberList + 4 * i) 4))

/-- The field of a member word that is Null in a span of index `i`: one that names nothing (R22), or a composite whose
index is not lower (R24). -/
def memberBad (s : State) (i : Nat) (h : Handle) : Option (Nat × Nat) :=
  if h.level == 4 && h.pier == 0 && h.index ≥ i then some (11, 0) else s.handleBad h

/-- Clamps of a member word at its address: a table entry of four bytes. -/
def memberClamps (s : State) (i : Nat) (m : Nat × Handle) : List ClampRec :=
  let w := s.nat m.1 4
  (if fld w 16 12 == 0 then [] else [{ kind := 1, clamp := CL_ZERO, widthM1 := 4, bitOff := 12, index := m.1 / 4, supplied := fld w 16 12 }]) ++
  match s.memberBad i m.2 with
  | some (hi, lo) => [{ kind := 1, clamp := CL_NULL, widthM1 := hi - lo, bitOff := lo, index := m.1 / 4, supplied := fld w hi lo }]
  | none => []

/-- Whether a member list lies in backed descriptor space. -/
def spanListAt (s : State) (a n : Nat) : Bool := isDesc a && (List.range n).all fun i => s.mapped (a + i)

/-- Fields of a span descriptor as SPAN_CREATE takes it (R23). -/
def spanFields (s : State) (v : Nat) : List Field := [
  { hi := 499, lo := 497, rule := rNull (· ≤ 4) }, { hi := 496, lo := 494, rule := rDflt (· ≤ 3) 0 },
  { hi := 415, lo := 368, rule := rNull fun a => aligned 4 a && s.spanListAt a (if fld v 496 494 == 3 then 4 else 4 * (fld v 493 483 + 1)) }, { hi := 367, lo := 0, rule := rZero }]

/-- Nesting depth: one above that of the deepest composite member. -/
def depthOf (s : State) (hs : List Handle) : Nat := 1 + ((hs.filter (·.level == 4)).map fun h => (s.spanDesc h.index).depth).foldl max 0

/-- The lowest free multicast group. -/
def freeGroup (s : State) : Option Nat := ((List.range 2047).map (0x800 + ·)).find? fun g => !s.net.groups.any (·.1 == g)

/-- Leaves of a span now served by a substitute: a spare pier, or here a core of another cluster (R27). -/
def substituted (s : State) (ls : List Leaf) : Nat :=
  (ls.filter fun l => s.servedBy l.pier != l.pier ||
    (l.level == 0 && l.pier == s.pierId && (match aget? s.fp.coreBind l.index with | some p => some (p / 32) != aget? s.fp.clusterBind (l.index / 32) | none => false))).length

/-- Depth, group and substitutes written into a descriptor by the device. -/
def deviceFields (v group retired depth : Nat) : Nat := setFld (setFld (setFld v 367 356 group) 355 344 (min retired 4095)) 343 340 depth

/-- A descriptor with the members it names installed at its index, or with 0 deleted, and its multicast group with it
(R23, R29). -/
def installSpan (s : State) (i d : Nat) (hs : List Nat) : State :=
  let old := (s.spanDesc i).mcastGroup
  let s0 := s.writeNat (SPAN_TABLE + 64 * i) 64 d
  let s1 : State := { s0 with net := { s0.net with spanLists := if d == 0 then adel s0.net.spanLists i else aset s0.net.spanLists i hs } }
  let gs := if old == 0 then s1.net.groups else s1.net.groups.filter (·.1 != old)
  let g := fld d 367 356
  { s1 with net := { s1.net with groups := if g == 0 then gs else gs.filter (·.1 != g) ++ [(g, (s1.leafSeq (Handle.ofNat (4 * 2 ^ 29 + i))).map (·.pier))] } }

/-- A descriptor installed here and on every other pier of the job; the command completes once each has it (R23). -/
def spreadSpan (s : State) (cmd i d : Nat) (hs : List Nat) : Ans :=
  let ps := s.ownedPiers.filter (· != s.pierId)
  let s1 := (s.installSpan i d hs).sendCtrlAll ps (.span i d hs)
  if ps.isEmpty then { s := s1, status := ST_DONE }
  else { s := { s1 with host := { s1.host with spanAcks := s1.host.spanAcks ++ [(cmd, i, ps)] } }, status := ST_PENDING }

/-- Another pier has installed a descriptor. -/
def spanAck (s : State) (pier i : Nat) : State :=
  let as := s.host.spanAcks.map fun a => if a.2.1 == i then (a.1, a.2.1, a.2.2.filter (· != pier)) else a
  let s1 : State := { s with host := { s.host with spanAcks := as.filter fun a => !a.2.2.isEmpty } }
  (as.filter fun a => a.2.2.isEmpty).foldl (fun t a => t.finish a.1 ST_DONE) s1

/-- A leaf as a span handle, in the result that reports it. -/
def Leaf.handle (l : Leaf) : Nat := l.level * 2 ^ 29 + l.pier * 2 ^ 17 + l.index

/-- A handle as its 32-bit word. -/
def Handle.word (h : Handle) : Nat := h.level * 2 ^ 29 + h.pier * 2 ^ 17 + h.index

/-- The checks of a descriptor once its fields hold, and its installation (R24, R25, R29, R460). `v` has its field clamps
applied, and `kept` are the members left. -/
def createSpan (s : State) (cmd v count : Nat) (kept : List Handle) : Ans :=
  let i := fld v 511 500
  let d0 := SpanDesc.ofNat (setFld v 493 483 (count - 1))
  let shaped := d0.rank == fld v 482 481 + 1 && d0.extents == (List.range d0.rank).map fun d => fld v (431 + 16 * d) (416 + 16 * d) + 1
  let v1 := setFld v 493 483 (count - 1)
  let v2 := if shaped then v1 else setFld (setFld v1 482 481 0) 479 416 (count - 1)
  let s1 := if shaped then s else
    s.report { kind := 0, clamp := CL_DEFAULT, widthM1 := 63, bitOff := 416, index := 0, supplied := fld v 479 416, used := count - 1 } cmd
  let depth := s.depthOf kept
  let hs := kept.map Handle.word
  let trial : State := s1.installSpan i (deviceFields v2 0 0 depth) hs
  let leafs := trial.leafSeq (Handle.ofNat (4 * 2 ^ 29 + i))
  let c := kept.headD (Handle.ofNat 0)
  let badBlock := d0.placement == .block && ((unitsIn c d0.memberLevel).1 == 0 || (unitsIn c d0.memberLevel).1 % count != 0)
  if badBlock then { s := s1, status := ST_STATE }
  else if depth > 8 then { s := s1, status := ST_RESOURCE }
  else match firstDup [] leafs with
    | some l => { s := s1, status := ST_STATE, comp := Leaf.handle l }
    | none =>
      let g := if bitOf v 480 && leafs.all (·.level == 3) then s1.freeGroup.getD 0 else 0
      s1.spreadSpan cmd i (deviceFields v2 g (trial.substituted leafs) depth) hs

def spanCreateBody (x : Cmd) (s : State) : Ans :=
  let fs := s.spanFields x.v
  let v := applyClamps (x.v % 2 ^ 512) fs
  let i := fld v 511 500
  x.fieldsThen s fs fun s =>
    if s.spanValid i then { s := s, status := ST_STATE }
    else
      let d := SpanDesc.ofNat v
      let ms := s.listed d
      let s1 := s.reports (ms.flatMap (s.memberClamps i)) x.id
      let kept := (ms.filter fun m => (s.memberBad i m.2).isNone).map (·.2)
      let count := if d.placement == .block then d.count else kept.length
      if kept.isEmpty then { s := s1, status := ST_CLAMPED } else s1.createSpan x.id v count kept

/-- Whether a loaded descriptor names a span: the barrier's or a collective's handle, a stream's SSPAN, or another
span's member list (R344). -/
def spanNamed (s : State) (i : Nat) : Bool :=
  let is (h : Handle) : Bool := h.level == 4 && h.index == i
  let ctx := s.collCtx
  (s.plan.loaded &&
    (is s.barrierHandle ||
     (ctx.active && (List.range ctx.count).any fun j =>
        is (CollDesc.ofNat (s.nat (ctx.dbase + 64 * (ListEntry.ofNat (s.nat (ctx.list + 16 * j) 16)).desc) 64)).span) ||
     s.baseProgs.any fun p => (s.progWords (s.ctxAt p)).any fun w => w.opcode == OP_SSPAN && is (Handle.ofNat (fld w 127 96)))) ||
  (List.range 4096).any fun j => j != i && s.spanValid j && ((s.spanDesc j).placement != .block) && (s.members (s.spanDesc j)).any is

def spanDeleteFields (s : State) : List Field := [{ hi := 127, lo := 116, rule := rNull s.spanValid }, { hi := 115, lo := 0, rule := rZero }]

/-- SPAN_DELETE: the index in [127:116]. -/
def spanDeleteBody (x : Cmd) (s : State) : Ans :=
  let i := fld x.v 127 116
  x.fieldsThen s s.spanDeleteFields fun s =>
    if s.spanNamed i then { s := s, status := ST_STATE } else s.spreadSpan x.id i 0 []

end State

end Sys2Proof.Machine
end

