-- ==== Sys2Proof/Machine/Roll.lean ====
section
/-! DEFINITION. Roll call, joining and leaving: announcements, placement, gathering and detachment (R288 to R292). -/

namespace Sys2Proof.Machine

/-- Coordinates stepped once in the direction of a torus port, modulo the extents (R289). -/
def stepCoord (e : Extents) (c : Nat × Nat × Nat) (port : Nat) : Nat × Nat × Nat :=
  let go (x n : Nat) : Nat := if port % 2 == 0 then (x + 1) % max 1 n else (x + n - 1) % max 1 n
  match port % 8 / 2 with
  | 0 => (go c.1 e.1, c.2.1, c.2.2)
  | 1 => (c.1, go c.2.1 e.2.1, c.2.2)
  | _ => (c.1, c.2.1, go c.2.2 e.2.2)

namespace State

def ownCoord (s : State) : Nat × Nat × Nat := (s.net.x, s.net.y, s.net.z)

/-- Torus ports that take part, and express ports. -/
def torusPorts (s : State) : List Nat := allPorts.filter fun p => s.portUp p && roleOf s.ext p < 6
def expressUp (s : State) : List Nat := expressPorts.filter s.portUp

/-- What a placed pier tells the neighbour at a port: its coordinates, or over an express port an offer (R289). -/
def announceAt (s : State) (p : Nat) : State :=
  let r := s.net.roll
  let id := if r.running then r.id else s.pierId
  if isExpress p then
    s.sendCtrlPort p (.offer r.root (b2n s.net.chain) s.net.ex s.net.ey s.net.ez r.spareBase id p s.net.x s.net.y s.net.z)
  else if roleOf s.ext p < 6 then
    s.sendCtrlPort p (.announce r.root (b2n s.net.chain) s.net.ex s.net.ey s.net.ez r.spareBase s.net.x s.net.y s.net.z)
  else s

def announceAll (s : State) : State := if s.net.spare then s else (s.torusPorts ++ s.expressUp).foldl announceAt s

/-- Neighbours' IDs are forgotten as a roll call reaches a pier. -/
def forgetPiers (s : State) : State :=
  { s with net := { s.net with ports := s.net.ports.map fun p => (p.1, { p.2 with nbr := p.2.nbr.map fun i => { i with pier := 0xFFF } }) } }

def learnPier (s : State) (p id : Nat) : State := s.setPort p { s.port p with nbr := (s.port p).nbr.map fun i => { i with pier := id } }

/-! ### Gathering on the root (R290) -/

/-- Whether a gathered map is whole: each UP torus port knows its neighbour's ID or is out of use, and every UP port's
neighbour has been gathered. -/
def mapWhole (ms : List PierMap) (m : PierMap) : Bool :=
  allPorts.all fun p =>
    let v := m.links.getD p 0
    !lmUp v || fld v 47 45 == 7 || ((isExpress p || m.spare || lmPier v != 0xFFF) && (mapSerial ms (m.near.getD p 0)).isSome)

/-- The root closes the roll call once every map is whole; a chain is as long as the piers on it. -/
def closeRoll (s : State) : State :=
  let ms := putMap s.net.newMaps s.ownMap
  let s1 : State := { s with net := { s.net with newMaps := ms } }
  if !ms.all (mapWhole ms) then s1
  else
    let n := (ms.filter fun m => !m.spare).length
    let s2 : State := { s1 with net := { s1.net with ex := if s.net.chain then n else s.net.ex, newMaps := [] } }
    s2.rootInstall ms

/-- A link map on its way to the root, over the way the roll call came. -/
def passMap (s : State) (m : PierMap) : State :=
  if s.net.roll.isRoot then { s with net := { s.net with newMaps := putMap s.net.newMaps m } }.closeRoll
  else s.sendCtrlPort s.net.roll.parent (.linkMap m)

def rollFields : List Field := [{ hi := 127, lo := 126, rule := rDflt (· ≤ 1) 0 }, { hi := 125, lo := 122, rule := rSat 0 7 }, { hi := 101, lo := 0, rule := rZero }]

/-- ROLL_CALL: this pier is the root at (0, 0, 0) (R288, R289). -/
def rollCallBody (x : Cmd) (s : State) : Ans :=
  let chain := fld x.v 127 126 == 1
  x.fieldsThen s rollFields fun s =>
    if s.plan.loaded || s.net.roll.running then { s := s, status := ST_STATE }
    else
      let net := { s.net with
        chain := chain, ex := if chain then 32 else min 7 (fld x.v 125 122) + 1, ey := if chain then 1 else fld x.v 121 118 + 1
        ez := if chain then 1 else fld x.v 117 114 + 1, x := 0, y := 0, z := 0, spare := false, newMaps := []
        roll := { running := true, isRoot := true, root := s.fuses.serial, spareBase := fld x.v 113 102 % 2048, placed := true, cmdId := x.id, id := 0 } }
      let s1 := ({ s with net := net } : State).forgetPiers.announceAll
      { s := s1.closeRoll, status := ST_PENDING }

/-! ### Placement (R289, R292) -/

/-- What an announcement or an offer carries beside coordinates. -/
structure RollCall where
  root : Nat
  mode : Nat
  ext : Extents
  spareBase : Nat

/-- A pier leaves the roll call it was in for another: a losing root's command completes. -/
def leaveRoll (s : State) : State :=
  if s.net.roll.running && s.net.roll.isRoot then s.finish s.net.roll.cmdId ST_STATE else s

/-- A pier takes its place in a roll call: coordinates, ID, the way to the root, its own announcements, and its map. -/
def takePlace (s : State) (c : RollCall) (p : Nat) (coord : Nat × Nat × Nat) (spare : Bool) (sender : Nat) : State :=
  let s0 := s.leaveRoll
  let net := { s0.net with
    chain := c.mode == 1, ex := c.ext.1, ey := c.ext.2.1, ez := c.ext.2.2, x := coord.1, y := coord.2.1, z := coord.2.2, spare := spare, newMaps := []
    roll := { running := true, root := c.root, spareBase := c.spareBase, placed := true, parent := p, id := if spare then 0xFFF else torusId coord } }
  let s1 := ((({ s0 with net := net } : State).forgetPiers).learnPier p sender).announceAll
  s1.passMap s1.ownMap

/-- Whether this pier answers a roll call: no job holds it, and the call is of its root or of one that goes before it. -/
def hearsRoll (s : State) (root : Nat) : Bool := !s.plan.loaded && (!s.net.roll.running || root ≤ s.net.roll.root)

/-- An announcement over a torus port (R289). A chain is placed along x+ alone; its ends may meet at the root. An
attached pier outside a roll call learns only who its neighbour is. -/
def onAnnounce (s : State) (p : Nat) (c : RollCall) (from' : Nat × Nat × Nat) : State :=
  let q := match (s.port p).nbr with | some i => i.port | none => p
  let want := stepCoord c.ext from' q
  let chainWay := c.mode != 1 || (q % 8 == 0)
  let id := torusId from'
  if !s.hearsRoll c.root then s
  else if !s.net.roll.running || s.net.roll.root != c.root || (s.net.spare && s.net.roll.running) then
    if !s.net.roll.running && s.pierId != 0xFFF && s.net.roll.root == c.root then s.learnPier p id
    else if chainWay then s.takePlace c p want false id else s
  else
    let closing := c.mode == 1 && (s.net.roll.isRoot || from' == (0, 0, 0))
    if want == s.ownCoord || closing || (c.mode == 1 && (s.net.x + 1 == from'.1 || from'.1 + 1 == s.net.x)) then
      -- round the ring of a chain, an announcement may have come before the place it is compared with
      let fresh := match (s.port p).nbr with | some i => c.mode == 1 && i.pier == 0xFFF | none => false
      let s1 := (if fresh then s.announceAt p else s).learnPier p id
      s1.passMap s1.ownMap
    else
      let s1 := s.setPort p { s.port p with state := .miswired }
      s1.passMap s1.ownMap

/-- An offer over an express port: a pier with no place becomes a spare there, at its lowest anchor's coordinates. -/
def onOffer (s : State) (p : Nat) (c : RollCall) (anchor : Nat) (from' : Nat × Nat × Nat) : State :=
  if !s.hearsRoll c.root then s
  else if !s.net.roll.running || s.net.roll.root != c.root then
    if !s.net.roll.running && s.pierId != 0xFFF && s.net.roll.root == c.root then s.learnPier p anchor
    else s.takePlace c p from' true anchor
  else
    let s1 := s.learnPier p anchor
    let lowest := expressPorts.all fun e => match (s.port e).nbr with | some i => anchor ≤ i.pier | none => true
    let s2 := if s.net.spare && lowest then { s1 with net := { s1.net with x := from'.1, y := from'.2.1, z := from'.2.2 } } else s1
    s2.passMap s2.ownMap

/-! ### Joining a running system (R292) -/

/-- Whether every torus port of a newly attached pier meets the neighbour that its place should have there. -/
def fitsPlace (s : State) (ms : List PierMap) (m : PierMap) : Bool :=
  !m.spare && !ms.any (fun x => x.pier == torusId (m.x, m.y, m.z)) &&
  (allPorts.filter fun p => roleOf s.ext p < 6).all fun p =>
    let c := stepCoord s.ext (m.x, m.y, m.z) p
    let v := m.links.getD p 0
    lmUp v && lmPort v % 8 == (if p % 2 == 0 then p % 8 + 1 else p % 8 - 1) &&
    ms.any fun x => x.serial == m.near.getD p 0 && x.pier == torusId c

/-- A link map reaches the root outside a roll call: a pier that is attached already brings its map up to date, and a new
one takes its place, a spare's ID, or none. -/
def rootTake (s : State) (m : PierMap) : State :=
  let old := s.nextMaps
  let known := match mapSerial old m.serial with | some x => x.pier != 0xFFF | none => false
  let named := if known then m else if s.fitsPlace old m then { m with pier := torusId (m.x, m.y, m.z) } else { m with pier := 0xFFF, spare := true }
  s.rootInstall (putMap old named)

/-- A link map arrives: passed on in a roll call, or to the root outside one. -/
def onLinkMap (s : State) (m : PierMap) : State :=
  if s.net.roll.running then s.passMap m
  else if s.pierId == ROOT_PIER then s.rootTake m
  else if s.pierId == 0xFFF then s
  else s.sendCtrl ROOT_PIER (.linkMap m)

/-- The maps of the whole system arrive. -/
def onInstall (s : State) (p root mode ex ey ez : Nat) (ms : List PierMap) : State :=
  if s.net.roll.running && s.net.roll.root != root then s else s.floodMaps (some p) root mode ex ey ez ms

/-- A port has come UP: in a roll call its neighbour hears of this pier's place; outside one an attached pier tells the
root, and tells a neighbour without an ID where it stands. -/
def portCameUp (s : State) (p : Nat) : State :=
  if s.net.roll.running then (let s1 := s.announceAt p; s1.passMap s1.ownMap)
  else if s.pierId == 0xFFF then s
  else
    let s1 := if (match (s.port p).nbr with | some i => i.pier == 0xFFF | none => false) && !s.net.spare then s.announceAt p else s
    s1.reportLinks

/-! ### Leaving (R291) -/

def detachFields (s : State) : List Field :=
  [{ hi := 127, lo := 116, rule := rNull fun p => p < 2048 && s.net.maps.any (·.pier == p) }, { hi := 115, lo := 0, rule := rZero }]

/-- DRAIN_DETACH: the pier in [127:116]. An epoch change installs tables without it. -/
def detachBody (x : Cmd) (s : State) : Ans :=
  let p := fld x.v 127 116
  x.fieldsThen s s.detachFields fun s =>
    if (s.plan.loaded && s.barrierPiers.contains p) || s.net.detach.isSome then { s := s, status := ST_STATE }
    else
      let s1 : State := { s with net := { s.net with detach := some (p, x.id) } }
      { s := s1.floodMaps none s.net.roll.root (b2n s.net.chain) s.net.ex s.net.ey s.net.ez (s.nextMaps.filter (·.pier != p)), status := ST_PENDING }

end State

end Sys2Proof.Machine
end

