-- ==== Sys2Proof/Machine/Oper.lean ====
section
/-! DEFINITION. The operator command (R319 to R321, R331): its acceptance. -/

namespace Sys2Proof.Machine

/-- Whether a command is the row's: its block invokes the row's operator, or none of the catalogue. -/
def operRow (op : Nat) (c : HostCmd) (s : State) : Bool := let k := fld (leNat (s.effective c)) 127 120; k == op || !opCodes.contains k

/-- OPERATOR: checked whole, bounded, then queued on every pier of its span. -/
def operBody (x : Cmd) (s : State) : Ans :=
  let v := x.v % 2 ^ 640
  let o := Oper.ofNat v
  let k := s.checkOper v
  let s1 := s.reports k.clamps x.id
  let it : Item := { kind := 0, index := 0 }
  if k.clamps.any State.isNull then { s := s1, status := ST_CLAMPED }
  else if s.operOverlaps o then { s := s1.report (nullAt it (495 + 128) (480 + 128) v) x.id, status := ST_CLAMPED }
  else if (o.op == OPR_FW_WRITE || o.op == OPR_FW_RESTORE) && !s.fwEnabled then { s := s1, status := ST_STATE }
  else if (!o.boundary || o.op == OPR_FW_RESTORE) && s.job.running then { s := s1, status := ST_STATE }
  else if o.op == OPR_RESHARD && s.falsework.reshard.isSome then { s := s1, status := ST_STATE }
  else if s.opLeafGone o.span then { s := s1, status := ST_UNRECOVERABLE }
  else if s.opUnserved o.span || s.host.ops.length ≥ 64 then { s := s1, status := ST_RESOURCE }
  else
    let b := s.operBound o (v % 2 ^ 128)
    if o.deadline != 0 && b.1 > o.deadline then { s := s1, status := ST_DEADLINE, comp := s.refusalRecord RR_OPERATOR b.2 x.id b.1 o.deadline }
    else
      let r : OpRun := { origin := s.pierId, cmdId := x.id, record := v % 2 ^ 128, block := v / 2 ^ 128, crc := s.operCrc v, due := !o.boundary }
      let s2 : State := { s1 with host := { s1.host with ops := s1.host.ops ++ [r] } }
      { s := s2.tellOp r (.operator s.pierId x.id r.record r.block r.crc), status := ST_PENDING }

end Sys2Proof.Machine
end

