-- ==== Sys2Proof/Machine/Abort.lean ====
section
/-! DEFINITION. ABORT: the stop points of the commands that can be pending (R364). -/

namespace Sys2Proof.Machine

namespace State

/-- A command stopped: it completes with ABORTED, and so ABORT with DONE. -/
def stopped (s : State) (target : Nat) : Ans := { s := s.finish target ST_ABORTED, status := ST_DONE }

/-- An abort that waits for its target's completion. -/
def abortWaits (s : State) (cmd target : Nat) : Ans :=
  { s := { s with host := { s.host with aborts := s.host.aborts ++ [(cmd, target)] } }, status := ST_PENDING }

/-- An operator stopped on every pier: what it discards writes nothing further (R364). -/
def stopOp (s : State) (x : OpRun) : State :=
  let s1 := s.tellOp x (.operatorRun x.origin x.cmdId false 0)
  let s2 : State := { s1 with
    coll := { s1.coll with runs := s1.coll.runs.filter fun r => r.coll != opColl x, parts := s1.coll.parts.filter fun p => p.1.2.coll != opColl x
                           early := s1.coll.early.filter fun m => m.1.coll != opColl x } }
  let s3 := if x.oper.op == OPR_RESHARD && s2.falsework.reshard.isSome then
      match s2.reshardDesc with
      | some (_, c, _) => (s2.tellReshard c (.reshardDone s.pierId RP_ABANDONED)).reshardAbandon
      | none => s2
    else s2
  s3.removeOp x.origin x.cmdId

/-- Whether an operator has passed its last stop point: UPDATE once its gate has passed, RESHARD in INSTALL (R364). -/
def opPast (s : State) (x : OpRun) : Bool := x.oper.op == OPR_RESHARD && (s.falsework.reshard.any fun r => r.2.2 != RP_STAGE)

/-- ABORT of a command of the log that is pending. -/
def abortPending (s : State) (cmd target : Nat) : Ans :=
  let waiting := s.host.waiting.any fun w => w.2.cmdId == target
  if waiting then ({ s with host := { s.host with waiting := s.host.waiting.filter fun w => w.2.cmdId != target } } : State).stopped target
  else match s.host.ops.find? fun x => opKey x s.pierId target with
  | some x => if s.opPast x then s.abortWaits cmd target else (s.stopOp x).stopped target
  | none => match s.host.waits.find? fun w => w.cmdId == target with
  | some w => { s := s.endWait w ST_ABORTED, status := ST_DONE }
  | none =>
    if s.job.cmdId == some target then
      if s.job.starting then { s := (s.sendCtrlAll s.plan.piers (.jobEnd ST_ABORTED s.pierId)).refuseStart ST_ABORTED 0, status := ST_DONE }
      else (({ s with gate := { s.gate with abort := true } } : State).tellSpan .jobAbort).abortWaits cmd target
    else if s.gate.update.any (fun u => u.1 == target) then
      ({ s with gate := { s.gate with update := s.gate.update.filter fun u => u.1 != target } } : State).stopped target
    else if s.gate.assign.any (fun a => a.1 == target) || s.gate.assignAsk.any (fun a => a.1 == target) then
      ({ s with gate := { s.gate with assign := s.gate.assign.filter fun a => a.1 != target, assignAsk := s.gate.assignAsk.filter fun a => a.1 != target } } : State).stopped target
    else if s.falsework.cmdId == some target then
      ({ s with falsework := { s.falsework with verifying := false, copies := [], cmdId := none, want := 0 } } : State).stopped target
    else if s.net.detach.any (fun d => d.2 == target) && (s.net.change == .idle || s.net.change == .wanted) then
      ({ s with net := { s.net with detach := none, newMaps := [], change := .idle } } : State).stopped target
    else if s.net.roll.running && s.net.roll.isRoot && s.net.roll.cmdId == target && (s.net.change == .idle || s.net.change == .wanted) then
      ({ s with net := { s.net with roll := {}, newMaps := [], change := .idle } } : State).stopped target
    else match s.fw.replace with
    | some r => if r.cmdId == target then { s := s.abortReplace r, status := ST_DONE } else s.abortWaits cmd target
    | none => s.abortWaits cmd target

end State

/-- ABORT names another command of the log, none of HELLO, OPEN and EVENT. -/
def abortFields (x : Cmd) (s : State) : List Field :=
  let ok (t : Nat) : Bool := t != x.id && ((s.logOf t).any fun r => r.opcode != OC_HELLO && r.opcode != OC_OPEN && r.opcode != OC_EVENT)
  [{ hi := 127, lo := 96, rule := rNull ok }, { hi := 95, lo := 0, rule := rZero }]

/-- ABORT (R345, R364). -/
def abortBody (x : Cmd) (s : State) : Ans :=
  let t := fld x.v 127 96
  let r := s.logOf t
  x.fieldsThen s (abortFields x s) fun s =>
    match r with
    | some r => if r.status.isSome then { s := s, status := ST_ABORT_LATE } else s.abortPending x.id t
    | none => { s := s, status := ST_CLAMPED }

end Sys2Proof.Machine
end

