-- ==== Sys2Proof/Machine/FabricRx.lean ====
section
/-! DEFINITION. Receiving on the viaduct: link retry, credits, forwarding, delivery of every flit type, the messages
between firmware processors, training and lane sparing (R273 to R293, R397). -/

namespace Sys2Proof.Machine

/-! ### Checks of one flit (R273, R275) -/

/-- A flit that passes its CRC and carries a field out of its range, a non-zero reserved bit, or a type its channel does
not accept (R275). -/
def malformed (f : Flit) : Bool :=
  f.type ≥ 8 || f.srcPier ≥ 2048 || (2048 ≤ f.via && f.via != 0xFFF) || f.len > 56 || f.pmap ≥ 2 ^ 56 || (sequencedType f.type && !vcAccepts f.vc f.type)

/-- A flit is the command's where its type is, or is none of the table. -/
def flitRow (t : Nat) (f : Flit) : Bool := f.type == t || f.type ≥ 8

namespace State

/-! ### Delivery (R33, R274, R275, R397) -/

/-- Memory that a flit reaches: none before the pier is ready, and the DDR5 tier alone during a compute reset. -/
def fabricServes (s : State) (a : Nat) : Bool := s.sys.boot == .ready && (!s.sys.computeReset || isDdr a)

/-- Bytes an arriving write changes: those of the M-engine's reach, and the area for buddy copies. -/
def fabricWrites (s : State) (a : Nat) : Bool := s.fabricServes a && (s.reach .move true a || (isDdr a && inRanges [s.budArea] a))

/-- An arriving access clamped at this pier: counted at the port and reported (R275). -/
def remoteClamp (s : State) (p : Nat) (f : Flit) : State :=
  (s.bump (.port p) PT_REMOTE_CLAMP).report { kind := 5, clamp := CL_NULL, widthM1 := 47, bitOff := 17, index := f.srcPier, supplied := f.addr } EVENT_ID

/-- Data asked of another pier has landed: the read that waits for that address goes on (R274). -/
def readLanded (s : State) (a n : Nat) : State :=
  match s.net.reads.findIdx? fun x => x.addr == a with
  | none => s
  | some i =>
    { s with net := { s.net with reads := (lset s.net.reads i fun x => { x with addr := x.addr + n, left := x.left - n }).filter fun x => x.left != 0 } }

/-- A WRITE flit's payload written at its address. -/
def landWrite (s : State) (p : Nat) (f : Flit) : State :=
  let bs := f.bytes
  let all := (List.range bs.length).all fun i => s.fabricWrites (f.addr + i)
  let s1 := if all then s.write f.addr bs
    else bs.zipIdx.foldl (fun (t : State) b => if s.fabricWrites (f.addr + b.2) then t.write (f.addr + b.2) [b.1] else t) (s.remoteClamp p f)
  s1.readLanded f.addr bs.length

/-- A read request: up to 4 KiB sent to its return address as writes. -/
def answerRead (s : State) (p : Nat) (f : Flit) : State :=
  let ret := f.words.getD 0 0 + f.words.getD 1 0 * 2 ^ 32
  let n := min 4096 (f.words.getD 2 0)
  let ok (i : Nat) : Bool := s.fabricServes (f.addr + i) && s.reach .move false (f.addr + i)
  let all := (List.range n).all ok
  let s1 := if all then s.noteReads [(f.addr, n)] else s.remoteClamp p f
  let bs := (List.range n).map fun i => if ok i then s.byte (f.addr + i) else (0#8, false)
  if n == 0 || ret ≥ 2 ^ 60 then s1 else s1.sendBytes (ret / 2 ^ 48) (ret % 2 ^ 48) (f.tag % 2) .none bs

/-- A message in pieces: kept until its last flit, then taken in whole (R305, R316). -/
def landPart (s : State) (f : Flit) (h : CollHead) : State :=
  let key := (f.srcPier, h)
  let bs := aget s.coll.parts key [] ++ f.bytes
  if !f.eom then { s with coll := { s.coll with parts := aset s.coll.parts key bs } }
  else
    let s1 : State := { s with coll := { s.coll with parts := adel s.coll.parts key } }
    match h.part with
    | .chunk i => if h.coll == RESHARD_COLL then s1.reshardChunk i bs else s1.collArrive h f.srcPier bs
    | _ => s1.collArrive h f.srcPier bs

/-! ### Messages between firmware processors -/

/-- A compute-reset notice: every stream holds at GATE while it stands (R396). -/
def takeNotice (s : State) (pier : Nat) : State :=
  { s with job := { s.job with notices := pier :: s.job.notices.filter (· != pier)
                               holds := if s.job.running then 3 :: s.job.holds.filter (· != 3) else s.job.holds } }

/-- A rejoin notice ends one (R396). -/
def endNotice (s : State) (pier : Nat) : State :=
  let ns := s.job.notices.filter (· != pier)
  let s1 : State := { s with job := { s.job with notices := ns, holds := if ns.isEmpty then s.job.holds.filter (· != 3) else s.job.holds } }
  if ns.isEmpty then s1.passGates else s1

/-- A pier lost, with what it still owed a re-shard (R316, R405). -/
def takeLoss (s : State) (pier : Nat) : State :=
  let s1 := s.reshardLose pier
  { s1 with job := { s1.job with notices := s1.job.notices.filter (· != pier)
                                 holds := if s1.job.notices.all (· == pier) then s1.job.holds.filter (· != 3) else s1.job.holds } }.losePier pier

/-- The page manager's own requests (R188); in a compute reset it does not run. -/
def takePage (s : State) (p : Nat) (f : Flit) (go : State → State) : State := if s.computing then go s else s.remoteClamp p f

/-- A firmware message taken in at a port. -/
def takeCtrl (s : State) (p : Nat) (f : Flit) : CtrlMsg → State
  | .announce root mode ex ey ez base x y z => s.onAnnounce p { root := root, mode := mode, ext := (ex, ey, ez), spareBase := base } (x, y, z)
  | .offer root mode ex ey ez base anchor _ x y z => s.onOffer p { root := root, mode := mode, ext := (ex, ey, ez), spareBase := base } anchor (x, y, z)
  | .linkMap m => s.onLinkMap m
  | .install root mode ex ey ez maps => s.onInstall p root mode ex ey ez maps
  | .stop => s.beginChange
  | .drained q => { s with net := { s.net with drained := q :: s.net.drained } }.settleChange
  | .vote r => s.takeVote r
  | .result r => { s with gate := { s.gate with arrived := some r } }
  | .notice q => s.takeNotice q
  | .rejoin q => s.endNotice q
  | .pageWrite x => s.takePage p f fun t => t.runPage (.write x)
  | .pageRead x => s.takePage p f fun t => t.runPage (.read x)
  | .lease win dst q => s.takePage p f fun t => t.leaseTo (some q) win dst
  | .release win => s.takePage p f fun t => t.doRelease win
  | .clear win => s.takePage p f fun t => t.doClear win
  | .lanes mask reason => s.narrow p ((s.port p).lanes &&& mask) reason
  | .jobStart q r => (s.putRecord q r).settleStart
  | .jobEnd status first => s.refuseStart status first
  | .jobAssign q => { s with gate := { s.gate with assign := s.gate.assign ++ [(EVENT_ID, q)] } }
  | .assignQuery q planId seed owner => s.sendCtrl q (.assignAnswer s.pierId (s.canJoin planId seed owner))
  | .assignAnswer q ok => s.assignAnswer q ok
  | .jobJoin r start decided => s.joinJob r start decided
  | .span i d hs => (s.installSpan i d hs).sendCtrl f.srcPier (.spanAck s.pierId i)
  | .spanAck q i => s.spanAck q i
  | .jobAbort => { s with gate := { s.gate with abort := true } }
  | .fwReady q step ok => { s with falsework := { s.falsework with ready := (s.falsework.ready.filter fun r : Nat × Nat × Bool => r.1 != q) ++ [(q, step, ok)] } }.settleReady
  | .fwComplete _ step => s.buddyAnswer (some step)
  | .verify lost want =>
    let s1 := match lost with | some q => s.takeLoss q | none => s
    { s1 with falsework := { s1.falsework with verifying := true, want := want, restoring := none, restored := [] } }
  | .copies q rs => s.takeCopies q rs
  | .restore g fromBuddy dispute digests => s.onRestore g fromBuddy dispute digests
  | .restoreDone q => s.restoredBy q
  | .shardAgain i => s.resendShard i
  | .shardFailed _ => s.buddyAnswer none
  | .reshardDone q ph => s.reshardReport q ph
  | .reshardAgain q i => s.reshardAgain q i
  | .lost q => s.takeLoss q
  | .hangQuery q object colls => s.answerHang q object colls
  | .hangAnswer q holds =>
    match s.gate.hangAsk with
    | some as => { s with gate := { s.gate with hangAsk := some ((as.filter fun r : Nat × Bool => r.1 != q) ++ [(q, holds)]) } }.settleHang
    | none => s
  | .recover _ => s.returnToFalsework
  | .jobStop status => if s.job.running then s.endJob status else s
  | .operator origin cmd record block crc => s.takeOperator origin cmd record block crc
  | .operatorReady q origin cmd status count => s.takeReady q origin cmd status count
  | .operatorRun origin cmd go count => s.takeRun origin cmd go count
  | .operatorPart q origin cmd status poison sums => s.takePiece q origin cmd status poison sums
  | .operatorSum origin cmd sums => s.takeSum origin cmd sums

/-- A flit for this pier takes its effect. COLL and data for an in-link engine reach none in a compute reset, and signals
no object (R397). -/
def deliver (s : State) (p : Nat) (f : Flit) : State :=
  match f.body with
  | .ctrl m => if f.type == FT_CTRL then s.takeCtrl p f m else s
  | .coll h => if s.computing then s.landPart f h else s.remoteClamp p f
  | _ =>
    if f.type == FT_WRITE then s.landWrite p f
    else if f.type == FT_READ_REQ then s.answerRead p f
    else if f.type == FT_SIGNAL then
      (if s.computing then s.deliverSig { id := f.words.getD 0 0 % 65536, amount := f.words.getD 1 0 } s.job.decided else s.remoteClamp p f)
    else s

/-! ### The link (R277, R278) -/

/-- The position of a sequence number in the retry buffer. -/
def retryAt (q : PortSt) (seq : Nat) : Option Nat := q.retry.findIdx? fun f => f.seq == seq

/-- Acknowledgement and credits of any good flit. -/
def takeLink (s : State) (p : Nat) (f : Flit) : State :=
  let q := s.port p
  let drop := if !f.ackValid then 0 else match retryAt q f.ack with | some i => (if f.type == FT_RETRY_REQ then i else i + 1) | none => 0
  s.setPort p { q with retry := q.retry.drop drop, credits := q.credits.mapIdx fun v c => c + f.crd v }

/-- RETRY_REQ acted on: everything from the requested number is sent again, in order. -/
def resend (s : State) (p : Nat) (f : Flit) : State :=
  let q := s.port p
  let again := q.reqSeq == f.ack && q.reqCount != 0
  let s1 := (s.setPort p { q with reqSeq := f.ack, reqCount := if again then q.reqCount + 1 else 1 }).bump (.port p) PT_RETRIES
  q.retry.foldl (fun t x =>
    let y := (stampLink (t.port p) x).sealed
    let t1 := t.setPort p (afterStamp (t.port p))
    { t1 with net := { t1.net with wire := t1.net.wire ++ [(p, y)] } }) s1

/-- A bad flit: sequenced flits are discarded until the expected one, which is asked for at once. -/
def askAgain (s : State) (p : Nat) : State :=
  let q := s.port p
  (s.setPort p { q with awaiting := true, asked := q.asked + 1 }).sendRetryReq p

/-- A flit that is discarded after the link has accepted it frees its buffer (R283). -/
def discard (s : State) (p ctr : Nat) (f : Flit) : State := (s.bump (.port p) ctr).freeBuffer (some (p, f.vc))

/-- A sequenced flit that the link has accepted goes to this pier, on its way, or both (R283, R285, R305). A pier without
an ID takes the fabric epoch of the messages it gets. -/
def routeIn (s0 : State) (p : Nat) (f : Flit) : State :=
  let s : State := if s0.pierId == 0xFFF && f.type == FT_CTRL then { s0 with net := { s0.net with epoch := f.epoch } } else s0
  let near := f.type == FT_COLL || (f.type == FT_CTRL && f.dst == 0xFFF)
  let f1 := f.withHdr 88 83 (f.ttl - 1)
  if f.epoch != s.net.epoch then s.discard p PT_STALE f
  else if f.ttl ≤ 1 then (s.discard p PT_TTL f).discardLink f
  else if near || f.dst == s.pierId then (s.deliver p f1).freeBuffer (some (p, f.vc))
  else if f.dst ≥ 0x800 then
    let s1 := if (s.groupMembers f.dst).contains s.pierId then s.deliver p f1 else s
    s1.hold { src := some (p, f.vc), flit := f1 }
  else s.hold { src := some (p, f.vc), flit := f1 }

/-- A sequenced flit: taken in order, once; an acknowledgement leaves after 64 (R278). -/
def takeSequenced (s : State) (p : Nat) (f : Flit) : State :=
  let q := s.port p
  if f.seq != q.rxSeq then
    (if !q.awaiting && (f.seq + 4096 - q.rxSeq) % 4096 < 2048 then s.askAgain p else s)
  else
    let s1 := (s.setPort p { q with rxSeq := (q.rxSeq + 1) % 4096, gotAny := true, sinceAck := q.sinceAck + 1, awaiting := false, asked := 0 }).bump (.port p) PT_RX
    let s2 := s1.routeIn p f
    if (s2.port p).sinceAck ≥ 64 && s2.portUp p then s2.sendIdle p else s2

/-- A flit arrives at a port that is UP. -/
def receive (s : State) (p : Nat) (f : Flit) : State :=
  let s1 := s.bump (.port p) PT_FEC_CORRECTED f.corrected
  let s2 := if f.uncorrectable then s1.bump (.port p) PT_FEC_UNCORRECTABLE else s1
  let crcBad := f.uncorrectable || f.crc != f.crcOf
  if crcBad then ((if f.uncorrectable then s2 else s2.bump (.port p) PT_CRC_FAIL).askAgain p).pump
  else if malformed f then ((s2.bump (.port p) PT_MALFORMED).askAgain p).pump
  else
    let s3 := s2.takeLink p f
    let s4 := if sequencedType f.type then s3.takeSequenced p f else if f.type == FT_RETRY_REQ then s3.resend p f else s3
    s4.pump.settleChange

/-- Retry is exhausted at either end of a port (R278, R279). -/
def exhausted (s : State) (p : Nat) : Bool := s.portUp p && ((s.port p).reqCount ≥ 8 || (s.port p).asked ≥ 8)

/-- The port goes down and is retired; admission runs again (R279, R363). -/
def retryExhausted (s : State) (p : Nat) : State := if s.exhausted p then ((s.portRetire p UR_RECURRED).readmit).pump.settleChange else s

/-- Every 2 µs a receiver asks again while it awaits a flit (R278). -/
def repeatRetryReq (s : State) (p : Nat) : State := if s.portUp p && (s.port p).awaiting then s.askAgain p else s

/-- An acknowledgement leaves where flits have come since the last one (R278). -/
def ackTimer (s : State) (p : Nat) : State := if s.portUp p && (s.port p).sinceAck != 0 then s.sendIdle p else s

/-! ### Training (R282, R287) -/

/-- Whether two ports may be joined: opposite directions of one dimension, or two express ports. -/
def rolesMeet (p q : Nat) : Bool :=
  if isExpress p || isExpress q then isExpress p && isExpress q else p % 8 / 2 == q % 8 / 2 && p % 2 != q % 2

/-- Credits granted as a port comes UP: the receive buffers of the other end (R276). -/
def fullCredits : List Nat := [512, 256, 512, 64]

/-- A neighbour that trains again without an ID that it held has been fully reset: it is lost, and a re-shard it had a
leaf of is abandoned (R399, R405). -/
def neighbourReset (s : State) (i : Ident) : State :=
  match mapSerial s.net.maps i.serial with
  | some m =>
    if i.pier != 0xFFF || m.pier == 0xFFF || !s.ownedPiers.contains m.pier || s.falsework.lost.contains m.pier then s
    else
      let s1 := match s.reshardDesc with
        | some (_, c, _) => if (s.leafPos c.span m.pier).isSome then (s.tellReshard c (.reshardDone s.pierId RP_RESET)).reshardReport s.pierId RP_RESET else s
        | none => s
      if s1.job.running then s1.declareLost m.pier else s1
  | none => s

/-- IDENT: the width is what both ends have lanes for; a port whose neighbour's role breaks R282 is held MISWIRED. -/
def identify (s : State) (p : Nat) (f : Flit) : State :=
  let q := s.port p
  match f.body with
  | .ident i =>
    if q.state != .training || q.retired || f.crc != f.crcOf || f.uncorrectable then s
    else
      let w := min (popcount 4 q.lanes) i.lanes
      if !rolesMeet p i.port then s.setPort p { q with state := .miswired, nbr := some i, width := 0 }
      else if w < 2 then s.setPort p { q with state := .down, nbr := some i }
      else
        let s1 := s.setPort p { q with state := .up, nbr := some i, width := w, txSeq := 0, rxSeq := 0, gotAny := false, credits := fullCredits
                                       owed := [0, 0, 0, 0], retry := [], sinceAck := 0, awaiting := false, reqSeq := 0, reqCount := 0, asked := 0, attempts := 0 }
        (s1.neighbourReset i).portCameUp p
  | _ => s

/-- What this end tells in training. -/
def ownIdent (s : State) (p : Nat) : Ident := { serial := s.fuses.serial, pier := s.pierId, port := p, stepping := 0, lanes := popcount 4 (s.port p).lanes }

/-- A DOWN port trains: it sends IDENT. Retired and disabled ports do not, nor those of a dimension that is not in use. -/
def startTraining (s : State) (p : Nat) : State :=
  let q := s.port p
  if q.retired || q.state == .disabled || q.state == .up || q.state == .miswired || popcount 4 q.lanes < 2 || !s.unitGood UK_VPORT p || (roleOf s.ext p == 7 && s.pierId != 0xFFF) then s
  else
    let f : Flit := { hdr := FT_IDENT * 2 ^ 129, body := .ident (s.ownIdent p) }
    let s1 := s.setPort p { q with state := .training, attempts := q.attempts + 1 }
    { s1 with net := { s1.net with wire := s1.net.wire ++ [(p, f.sealed)] } }

/-- A port tries again (R287): steps 1 to 4 twice more, then from DOWN every second. -/
def retryTraining (s : State) (p : Nat) : State :=
  let q := s.port p
  if q.state == .training && q.attempts ≥ 3 then s.setPort p { q with state := .down, attempts := 0 } else s.startTraining p

/-! ### Lane sparing (R280) -/

def laneLost (s : State) (p lane : Nat) : State := s.laneDrop p lane UR_RECURRED

/-- A lane whose corrected symbols exceed one in 10^6 over a second. -/
def symbolRate (s : State) (p lane errors symbols : Nat) : State := if errors * 1000000 > symbols then s.laneDrop p lane UR_RECURRED else s

/-- Margins of the three eyes of lanes, in 0.1 mV: the day's lowest of each lane is kept for the ageing monitors (R421), and a
lane with an eye below 12 mV is dropped. -/
def eyeMargins (s : State) (ms : List (Nat × Nat × Nat)) : State :=
  let note (t : State) (m : Nat × Nat × Nat) : State := { t with age := { t.age with eye := aset t.age.eye m.1 (min m.2.2 (aget t.age.eye m.1 m.2.2)) } }
  let s1 := (ms.filter fun m => m.1 < 64 && bitOf (s.port (m.1 / 4)).lanes (m.1 % 4)).foldl note s
  let low := ((ms.filter fun m => m.1 < 64 && m.2.2 < 120).map (·.1)).eraseDups
  low.foldl (fun t l => t.laneDrop (l / 4) (l % 4) UR_EYE) s1

/-! ### The quiet interval (R284) -/

/-- The quiet interval ends: tables installed, epoch inverted, injection resumed; admission runs again (R363). -/
def quietEnds (s : State) : State := if s.net.change == .quiet then s.endChange.readmit else s

end State

end Sys2Proof.Machine
end

