-- ==== Sys2Proof/Machine/Boot.lean ====
section
/-! DEFINITION. Power, pins, bring-up, resets, and the power and thermal limits (R256, R257, R260, R385 to R399, R440 to R446). -/

namespace Sys2Proof.Machine

namespace State

/-! ### What a full reset leaves (R260, R393) -/

/-- The pier as a full reset or the loss of power leaves it: fuses, the DDR5 tier where it is kept, the pins and sensors,
and the queue; everything else is lost. -/
def cold (s : State) (sys : Sys) (ddr : Bool) : State :=
  { sys := sys, fuses := s.fuses, freeCtr := s.freeCtr, pending := s.pending
    mem := if ddr then s.mem.filter fun c => isDdr c.1 else []
    ecc := if ddr then s.ecc.filter fun c => isDdr c.1 else [] }

/-- Pins, power and sensors, with bring-up back at a place before its start. -/
def sysAt (s : State) (b : Boot) : Sys :=
  { s.sys with boot := b, computeReset := false, earlyComputeReset := false, pllLost := [], keepDdr := false, dimms := 0, powerHold := false, heatHold := [] }

/-- Whether the DDR5 tier still holds what it held at the last full start: untouched until training, kept through it where
OPEN asked for that, and kept once the pier is ready (R260, R390). -/
def ddrKept (s : State) : Bool :=
  match s.sys.boot with
  | .ready => true
  | .training | .memTest => s.sys.retained && s.sys.keepDdr
  | _ => s.sys.retained

/-- RESET_N falls: a full reset at any step (R385, R388, R393, R394). -/
def fullReset (s : State) : State :=
  let pin := { s.sys with resetN := false }
  if s.sys.boot == .off then { s with sys := pin }
  else s.cold { s.sysAt .held with resetN := false, retained := s.ddrKept } true

/-- Rails fall: the tier's contents are lost with everything else (R260, R442). -/
def powerDown (s : State) : State := s.cold { s.sysAt .off with pwrGood := false, retained := false } false

/-- Rails rise where PWR_EN is asserted and VIN is within its range (R441). -/
def powerUp (s : State) : State :=
  if s.sys.boot == .off && s.sys.pwrEn && s.sys.vinOk then { s with sys := { s.sys with boot := .held, pwrGood := true } } else s

def pwrRise (s : State) : State := ({ s with sys := { s.sys with pwrEn := true } }).powerUp
def pwrFall (s : State) : State := ({ s with sys := { s.sys with pwrEn := false } }).powerDown
def undervoltage (s : State) : State := ({ s with sys := { s.sys with vinOk := false } }).powerDown
def vinEnters (s : State) : State := ({ s with sys := { s.sys with vinOk := true } }).powerUp

/-! ### The start-up sequence (R387 to R391) -/

/-- RESET_N rises: bring-up begins, and the slot number is read (R385, R387, R451). -/
def resetRise (s : State) (slotId : Nat) : State :=
  let s1 : State := { s with sys := { s.sys with resetN := true } }
  if s.sys.boot == .held && s.sys.pwrGood then { s1 with sys := { s1.sys with boot := .testing, slotId := slotId % 16 } } else s1

/-- Kinds that the start-up test judges: stacks, channels and lanes are judged later (R389). -/
def testedKind (k : Nat) : Bool := k != UK_HBM && k != UK_DDR && k != UK_VLANE && unitKinds.contains k

/-- A unit reconciled: the fuse's mark stands beside the test's finding (R389). `mem` says that a memory test failed. -/
def reconcile (s : State) (u : Nat × Nat) (fuse fails mem : Bool) : State :=
  let why := if !fails then UR_FUSE else if mem then UR_MEMORY else UR_LOGIC
  let s1 := s.markUnit u.1 u.2 2 (if fuse then 1 else 2) why
  if !fuse && s.unitGood u.1 u.2 then s1.wearAdd u.1 u.2 WE_TEST_BAD why 0 else s1

/-- Lanes of every port that are good. -/
def laneMasks (s : State) : State :=
  allPorts.foldl (fun t p => t.setPort p { t.port p with lanes := ((List.range 4).map fun i => b2n (s.unitGood UK_VLANE (4 * p + i)) * 2 ^ i).sum }) s

/-- Units as fuses and test leave them, bound to slots. `failed` gives kind and index, the kind raised by 16 where a memory
test failed. -/
def startUnits (s : State) (failed : List (Nat × Nat)) : State :=
  let fails := (failed.map fun f => ((f.1 % 16, f.2), decide (f.1 ≥ 16))).filter fun f => testedKind f.1.1
  let hit (u : Nat × Nat) := fails.find? fun f => f.1 == u
  let s1 := s.fuses.bad.foldl (fun t u => t.reconcile u true (hit u).isSome ((hit u).elim false (·.2))) s
  let s2 := fails.foldl (fun t f => t.reconcile f.1 false true f.2) s1
  s2.bindAll.laneMasks

/-- Without SEC bring-up stops (R391). -/
def startSys (s : State) (failed : List (Nat × Nat)) : Sys :=
  if s.sys.boot == .testing then { s.sys with boot := if (s.startUnits failed).unitGood UK_ABUT 0 then .linked else .dead } else s.sys

/-- The start-up test ends: fuses and test reconciled, units bound, and every port set to train; without SEC bring-up
stops, and without an LMP no port trains. -/
def startUp (s : State) (failed : List (Nat × Nat)) : State :=
  if s.sys.boot != .testing then s
  else
    let s1 : State := { s.startUnits failed with sys := s.startSys failed }
    if s1.sys.boot == .linked && (s1.unitGood UK_ABUT 3 || s1.unitGood UK_ABUT 4) then allPorts.foldl startTraining s1 else s1

/-- Capacities of DIMMs that the tier accepts, in GiB (R256). -/
def dimmSizes : List Nat := [32, 48, 64, 96, 128, 192, 256]

/-- Capacity of a channel's DIMM: nine bits a channel, M0 lowest; 0 for none. -/
def dimmOf (dimms c : Nat) : Nat := fld dimms (9 * c + 8) (9 * c)

/-- The channel set the tier uses: the largest whose channels are all usable (R257). -/
def dimmSet (dimms : Nat) (ok : Nat → Bool) : List Nat :=
  let usable (c : Nat) : Bool := dimmSizes.contains (dimmOf dimms c) && ok c
  ([List.range 8, [0, 1, 4, 5], [0, 4]].find? fun g => g.all usable).getD []

/-- Channels of a population, as populated sockets. -/
def dimmMask (dimms : Nat) : Nat := ((List.range 8).map fun c => b2n (dimmOf dimms c != 0) * 2 ^ c).sum

/-- Stacks and channels as training leaves them: a channel whose DIMM is not acceptable is BAD, and so is a stack that
fails. -/
def trainUnits (s : State) (failedHbm : List Nat) (dimms : Nat) : State :=
  let s1 := failedHbm.foldl (fun t i => t.reconcile (UK_HBM, i) false true true) s
  ((List.range 8).filter fun c => dimmOf dimms c != 0 && !dimmSizes.contains (dimmOf dimms c)).foldl (fun t c => t.reconcile (UK_DDR, c) false true true) s1

def stacksGood (s : State) : Bool := (List.range 12).all (s.unitGood UK_HBM)

def trainSys (s : State) (failedHbm : List Nat) (dimms : Nat) : Sys :=
  if s.sys.boot == .training && (s.trainUnits failedHbm dimms).stacksGood then { s.sys with boot := .memTest, dimms := dimmMask dimms } else s.sys

/-- FW_LOAD completes. -/
def loadEnds (s : State) (st : Nat) : State :=
  match s.fw.loadCmd with
  | some c => let u := s.finish c st; { u with fw := { u.fw with loadCmd := none, staging := none } }
  | none => s

/-- Memory training ends (R256, R257, R371, R387, R391). `dimms` gives each channel's capacity; a channel whose DIMM is
not acceptable or failed training has a capacity that is none of R256's. A stack that fails leaves FW_LOAD
FAILED_UNRECOVERABLE and bring-up where it is; otherwise FW_LOAD completes. -/
def trained (s : State) (failedHbm : List Nat) (dimms : Nat) : State :=
  if s.sys.boot != .training then s
  else
    let s2 := s.trainUnits failedHbm dimms
    if !s2.stacksGood then s2.loadEnds ST_UNRECOVERABLE
    else
      let g := dimmSet dimms (s2.unitGood UK_DDR)
      let gib := g.foldl (fun m c => min m (dimmOf dimms c)) 256
      let s3 : State := { s2 with sys := s.trainSys failedHbm dimms, ddrBytes := g.length * gib * GiB, ddrSet := g }
      s3.loadEnds (if s3.fw.degraded then ST_DEGRADED else ST_DONE)

def testSys (s : State) : Sys := if s.sys.boot == .memTest then { s.sys with boot := .ready, earlyComputeReset := false } else s.sys

/-- The memory test ends (R388, R390): memory reads as +0, but a tier that is kept; units that failed count as
uncorrected errors. The pier is ready. -/
def memTested (s : State) (bad : List Nat) : State :=
  if s.sys.boot != .memTest then s
  else
    let kept := s.sys.keepDdr && s.sys.retained
    let keep (k : Nat) : Bool := isDdr k && kept
    let s1 : State := { s with mem := s.mem.filter fun c => keep c.1, ecc := s.ecc.filter fun c => keep c.1, sys := s.testSys }
    let covered := bad.filter fun k => k % 4 == 0 && ((isHbm k && !inRanges [(0x8FE0000000, 0x8FE8000000)] (addrOf s.localGib k)) || inRanges descRanges k || (isDdr k && !s.sys.keepDdr && k < DDR_BASE + s.ddrBytes))
    let s2 := covered.foldl (fun t k => let b := t.memBank (addrOf t.localGib k); (t.bump b UE_READ).noteRow b k) s1
    let s3 := s2.memoryRetire.1
    if s.sys.earlyComputeReset then s3.event ST_DONE 0 else s3

/-! ### Compute reset (R393 to R398) -/

/-- Banks whose counters lie on the deck dies. -/
def deckBank : Bank → Bool
  | .drain .. | .atrest _ | .wire _ | .camberConv _ | .activity .. | .table _ | .attn _ | .page | .routing _ | .camber _
  | .memCore _ | .memCluster _ | .memHbm _ | .recv | .obsSlot _ | .sample _ => true
  | .link _ | .gate | .memDdr _ | .port _ | .coll | .hiding | .obsPier | .host => false

/-- What the deck dies hold beside HBM is lost: core and cluster memory, streams, arrays, kernels, pass results, trace
buffers and counters. -/
def deckDown (s : State) : State :=
  let s1 := if s.job.running then s.restartStreams s.job.decided true else s
  let lost (a : Nat) : Bool := CLUSTER_BASE ≤ a && a < DESC_BASE
  { s1 with
    mem := s1.mem.filter fun c => !lost c.1, ecc := s1.ecc.filter fun c => !lost c.1
    arrays := [], kernels := [], layers := []
    ctr := s1.ctr.filter fun c => !deckBank c.1.1
    trace := { s1.trace with bufs := s1.trace.bufs.map fun b => (b.1, { b.2 with recs := b.2.recs.drop (b.2.recs.length - s1.trace.spillMib * 512) })
                             countsLost := true, bankLost := true, bankRead := [], counts := [] } }

/-- Operators' collectives in flight here are given up, to run once more after rejoin (R331, R396). -/
def stopOps (s : State) : State :=
  let rs := s.coll.runs.filter fun r => r.op.isSome
  { s with coll := { s.coll with runs := s.coll.runs.filter (·.op.isNone), opDone := s.coll.opDone ++ rs.map fun r => (r.coll, true) } }

/-- The vote of the attempt in flight goes out with UNIT set, unless the pier has voted, and the notice follows (R396). -/
def noticeOut (s : State) : State :=
  if !s.job.running then (s.tellSpan (.notice s.pierId)).takeNotice s.pierId
  else
    let s1 := s.fault s.job.decided FB_UNIT
    let s2 :=
      if s.gate.voted == some (s.job.decided, s.job.attempt) || s.ownLeaf.isNone then s1
      else
        let s3 : State := { s1 with gate := { s1.gate with voted := some (s.job.decided, s.job.attempt) } }
        if s.barrierHead == s.pierId then s3.takeVote s3.ownVote.toNat else s3.sendCtrl s.barrierHead (.vote s3.ownVote.toNat)
    (s2.tellSpan (.notice s.pierId)).takeNotice s.pierId

/-- A compute reset stands from the fall of COMPUTE_RESET_N on a pier that is ready (R388, R394). -/
def fallSys (s : State) : Sys :=
  { s.sys with
    computeResetN := false, computeReset := s.sys.boot == .ready || s.sys.computeReset
    earlyComputeReset := s.sys.earlyComputeReset || (s.on && s.sys.boot != .ready) }

/-- COMPUTE_RESET_N falls. Before the pier is ready it only raises the report's generation (R388); in a reset that stands
it starts that reset again (R394). -/
def computeFall (s : State) : State :=
  let s1 : State := { s with sys := { s.sys with computeResetN := false } }
  if s.sys.boot != .ready then
    (if s.on then { s1 with sys := s.fallSys, fp := { s1.fp with gen := (s1.fp.gen + 1) % 65536 } } else s1)
  else if s.sys.computeReset then s1.deckDown
  else
    let pass2 := s.job.running && s.job.decided > s.job.startStep && !s.passDone (s.job.decided - 1)
    let s2 := (s1.noticeOut.stopOps).deckDown
    { s2 with sys := s.fallSys, job := { s2.job with needRecovery := s2.job.needRecovery || pass2 } }

/-- NONE objects that the job uses, whose counts a compute reset loses. -/
def looseSyncs (s : State) : Bool := s.plan.syncs.any fun id => s.syncMode id != 1 && s.syncMode id != 2

/-- Rejoin ends the compute reset (R395). -/
def riseSys (s : State) : Sys := { s.sys with computeResetN := true, computeReset := s.sys.computeReset && s.sys.boot != .ready }

/-- COMPUTE_RESET_N rises: units that fail to restart are retired with LOAD_INCOMPLETE, sync objects restored, and the
rejoin notice sent; a re-shard goes on from its journal (R395, R396, R398). -/
def computeRise (s : State) (failed : List (Nat × Nat)) : State :=
  let s1 : State := { s with sys := s.riseSys }
  if !(s.sys.boot == .ready && s.sys.computeReset) then s1
  else
    let a := s1.retireAll (failed.map fun u => { kind := u.1, index := u.2, reason := UR_LOAD })
    let s3 := a.1.restoreSyncs s.job.decided
    let s4 := if s3.looseSyncs then s3.event ST_DONE 0 else s3
    if a.2 then s4.declareLost s4.pierId
    else ((s4.tellSpan (.rejoin s4.pierId)).endNotice s4.pierId).reshardResume

/-- A pier under notice has not rejoined within the hang interval: it is lost (R396, R398). -/
def rejoinFails (s : State) (pier : Nat) : State :=
  if s.job.notices.contains pier then (s.sendCtrlAll (s.barrierPiers ++ s.plan.spares) (.lost pier)).takeLoss pier else s

/-! ### Clocks (R386) -/

def pllSys (s : State) (die : Nat) : Sys := if die < 6 then { s.sys with pllLost := die :: s.sys.pllLost.filter (· != die) } else s.sys

/-- A die's root PLL loses lock: its clocks stop, and with an abutment die's its ports. -/
def pllLoss (s : State) (die : Nat) : State :=
  let s1 : State := { s with sys := s.pllSys die }
  if die < 4 || die ≥ 6 then s1
  else ((List.range 8).map fun i => 8 * (die - 4) + i).foldl (fun t p => t.setPort p { t.port p with state := .down }) s1

/-! ### Power and heat (R444, R446) -/

/-- ACLK cycles of one 10 µs and one 100 µs interval. -/
abbrev CYC10 : Nat := 10500
abbrev CYC100 : Nat := 105000

def meanOf (l : List Nat) : Nat := if l.isEmpty then 0 else l.sum / l.length

/-- The limit on the mean of a second: 3,600 W, or the plan's own where that is lower. -/
def powerLimit (s : State) : Nat := if s.plan.loaded && s.plan.powerW != 0 then min 3600 s.plan.powerW else 3600

/-- A sample of input power, every 10 µs: array issue is withheld while either mean is above its bound, and those cycles
are counted. -/
def powerSample (s : State) (watts : Nat) : State :=
  let l := (watts :: s.sys.power).take 100000
  let hold := decide (meanOf (l.take 1000) > 4400) || decide (meanOf l > s.powerLimit)
  let s1 : State := { s with sys := { s.sys with power := l, powerHold := hold } }
  if hold && s.computing then s1.bump .gate GC_POWER CYC10 else s1

/-- Hottest junction. -/
def hottestDie (s : State) : Nat := s.sys.temps.foldl (fun m t => max m t.2) 0

/-- Junction sensors of a die and the outlet, every 100 µs, in 0.01 °C: array issue is withheld on a die from 95 °C until
90 °C, and THERM_N asserted from 105 °C, or 62 °C at the outlet, until both have fallen by 5 °C. -/
def junction (s : State) (die centi outlet : Nat) : State :=
  let temps := aset s.sys.temps die centi
  let others := s.sys.heatHold.filter (· != die)
  let heat := if centi ≥ 9500 || (s.sys.heatHold.contains die && centi > 9000) then die :: others else others
  let s1 : State := { s with sys := { s.sys with temps := temps, outlet := outlet, heatHold := heat } }
  let hot := s1.hottestDie
  let s2 : State := { s1 with sys := { s1.sys with
    thermN := if hot ≥ 10500 || outlet ≥ 6200 then false else if hot ≤ 10000 && outlet ≤ 5700 then true else s.sys.thermN } }
  if die < 4 && heat.contains die && s.computing then s2.bump .gate GC_THERMAL CYC100 else s2

/-- A junction has stayed at 115 °C or above for 1 ms: power-down. -/
def thermalTrip (s : State) : State := if s.sys.boot != .off && s.hottestDie ≥ 11500 then s.powerDown else s

/-! ### Around these commands -/

/-- A command of the pins and sensors: heard in every state. -/
def actPin (s : State) (i : Instr) (f : State → State) : Host.Outcome State Fault Refusal :=
  .next { s.take (f s) i.writes with fuses := s.fuses }

/-- A command of bring-up or of a partial reset, with what follows from any change: power, clocks, pins and bring-up become
what is given. -/
def actBoot (s : State) (i : Instr) (heard : Bool) (sys : Sys) (f : State → State) : Host.Outcome State Fault Refusal :=
  .next (if heard then { s.after (s.take (f s) i.writes) with fuses := burn s.fuses (s.take (f s) i.writes).fuses, sys := sys } else s)

end State

end Sys2Proof.Machine
end

