-- ==== Sys2Proof/Machine/Observe.lean ====
section
/-! DEFINITION. Observability and ageing: sampling and trace control, debug mode, the snapshot's parts, ring oscillators
and the daily ageing sample (R420, R421, R426 to R437). -/

namespace Sys2Proof.Machine

/-- Whether a command is the row's: a discriminating field of its block holds the row's value, or a value that none of the
rows has. -/
def rowField (hi lo row last : Nat) (c : HostCmd) (s : State) : Bool := let k := fld (leNat (s.effective c)) hi lo; k == row || k > last

namespace State

/-! ### TRACE_CTL (R427, R431, R432) -/

/-- An address of HBM outside the device reserve, aligned, with room for `n` bytes. -/
def hbmRing (a align n : Nat) : Bool := a % align == 0 && a < RESERVE && a + n ≤ RESERVE

/-- The op field, clamped to Null outside its codes (R431). -/
def traceOp : Field := { hi := 255, lo := 253, rule := rNull (· ≤ 4) }

def sampleFields (s : State) (v : Nat) : List Field :=
  let z := if bitOf v 246 then 5440 else 1344
  [traceOp, { hi := 252, lo := 248, rule := rSat 10 24 }, { hi := 125, lo := 0, rule := rZero }] ++
    (if !bitOf v 247 then [] else [{ hi := 245, lo := 198, rule := rNull fun a => hbmRing a 4096 (64 * z) }, { hi := 173, lo := 126, rule := rNull fun a => s.opened 1 a 576 },
      { hi := 197, lo := 174, rule := rSat 1 16777215 }])

/-- SAMPLE: sampling configured, started from sequence 0, or stopped. A selector code of no event is clamped to NONE. The
ring and the selectors are looked at where sampling is enabled. -/
def sampleBody (x : Cmd) (s : State) : Ans :=
  let en := bitOf x.v 247
  let z := if bitOf x.v 246 then 5440 else 1344
  let a := fld x.v 245 198
  let n := max 1 (min (fld x.v 197 174) ((RESERVE - a) / (64 * z)))
  x.fieldsThen s (s.sampleFields x.v) fun s =>
    if !en then { s := { s with trace := { s.trace with sampling := false } }, status := ST_DONE }
    else
      let raw := (List.range 288).map fun i => s.nat (fld x.v 173 126 + 2 * i) 2
      let ok (i c : Nat) : Bool := if i < 32 then coreCodeOk c else clusterCodeOk c
      let s1 := raw.zipIdx.foldl (fun t c =>
        if ok c.2 c.1 then t else t.report { kind := 0, clamp := CL_DEFAULT, widthM1 := 15, bitOff := 16 * c.2, supplied := c.1, used := 0 } x.id) s
      { s := { s1 with trace := { s1.trace with
          sampling := true, interval := max 10 (min 24 (fld x.v 252 248)), coreEn := bitOf x.v 246, ringAddr := a, ringRecords := n
          selectors := raw.zipIdx.map fun c => if ok c.2 c.1 then c.1 else 0
          sampleSeq := 0, counts := [] } }, status := ST_DONE }

/-- Room for the spill in whole 64 MiB. -/
def spillMibOf (v : Nat) : Nat := min 4096 (fld v 191 179) / 64 * 64

def traceFields (s : State) (v : Nat) : List Field :=
  let mib := spillMibOf v
  [traceOp, { hi := 252, lo := 251, rule := rDflt (· ≤ 2) 1 }, { hi := 240, lo := 240, rule := rDflt (fun l => l == 0 || s.inDebug) 0 },
   { hi := 191, lo := 179, rule := fun m => if m == mib then none else some (CL_DOWN, mib) }, { hi := 178, lo := 0, rule := rZero }] ++
    (if mib == 0 then [] else [{ hi := 239, lo := 192, rule := rNull fun a => hbmRing a 65536 (mib * 2 ^ 20) }])

/-- TRACE: every slot's buffer armed and emptied. -/
def traceBody (x : Cmd) (s : State) : Ans :=
  let mib := spillMibOf x.v
  let mode := if fld x.v 252 251 ≤ 2 then fld x.v 252 251 else 1
  x.fieldsThen s (s.traceFields x.v) fun s =>
    { s := { s with trace := { s.trace with
        mode := mode, pre := fld x.v 250 247, trigMask := fld x.v 246 241, level := bitOf x.v 240 && s.inDebug, spillAddr := fld x.v 239 192, spillMib := mib
        bufs := (List.range 64).map fun k => (k, { state := .armed }) } }, status := ST_DONE }

/-- A block of an op alone. -/
def opFields : List Field := [traceOp, { hi := 252, lo := 0, rule := rZero }]

/-- TRIGGER: the host's trigger fires (R432). -/
def triggerBody (x : Cmd) (s : State) : Ans :=
  x.fieldsThen s opFields fun s => { s := s.trigger TG_HOST, status := ST_DONE }

/-- STOP: buffers disarmed, contents kept. -/
def stopBody (x : Cmd) (s : State) : Ans :=
  x.fieldsThen s opFields fun s =>
    { s := { s with trace := { s.trace with bufs := s.trace.bufs.map fun b => (b.1, { b.2 with state := .disarmed }) } }, status := ST_DONE }

/-- Codes of the buffer states. -/
def traceStateCode : TraceState → Nat
  | .disarmed => 0 | .armed => 1 | .post _ => 2 | .frozen => 3 | .full => 4

/-- A slot's status record: seven 32-bit words in the order of R431, and a zero word. -/
def traceStatus (s : State) (slot : Nat) : List Byte :=
  let b := s.traceBuf slot
  let c := traceCap s.trace
  ([b.written % c, (b.written - b.recs.length) % c, match b.trigAt with | some p => p % c | none => 0xFFFFFFFF, traceStateCode b.state,
    s.counter (.obsSlot slot) OB_TRACE_LOST, s.counter (.obsSlot slot) OB_IGNORED, s.counter (.obsSlot slot) OB_SAMPLES_LOST, 0]).flatMap (natLE 4)

def traceStatusFields (s : State) : List Field := [traceOp, { hi := 252, lo := 205, rule := destRule s 2048 }, { hi := 204, lo := 0, rule := rZero }]

def traceStatusBody (x : Cmd) (s : State) : Ans :=
  x.fieldsThen s s.traceStatusFields fun s =>
    { s := s.hostPut (fld x.v 252 205) ((List.range 64).flatMap s.traceStatus), status := ST_DONE }

/-- A WINDOW buffer whose records after the trigger are all stored becomes FROZEN (R432). -/
def freezeTrace (s : State) (slot : Nat) : State :=
  let b := s.traceBuf slot
  if b.state == .post 0 then s.setTraceBuf slot { b with state := .frozen } else s

/-! ### Debug mode (R435) and the snapshot's parts (R437) -/

/-- A block whose bits from one down are reserved. -/
def zeroFrom (hi : Nat) : List Field := [{ hi := hi, lo := 0, rule := rZero }]

def debugBody (x : Cmd) (s : State) : Ans :=
  x.fieldsThen s (zeroFrom 126) fun s =>
    if s.plan.loaded then { s := s, status := ST_STATE } else { s := { s with debugMode := bitOf x.v 127 }, status := ST_DONE }

def snapTakeBody (x : Cmd) (s : State) : Ans :=
  x.fieldsThen s (zeroFrom 125) fun s =>
    if s.trace.snapHeld then { s := s, status := ST_STATE } else { s := s.snapshot none false, status := ST_DONE }

/-- Bytes asked for of a store of `size` bytes, cut at its end. -/
def partBytes (v size : Nat) : Nat := min (fld v 45 14) (size - fld v 77 46)

def partFields (s : State) (v size spare : Nat) : List Field :=
  let n := partBytes v size
  [{ hi := 125, lo := 78, rule := destRule s n }, { hi := 45, lo := 14, rule := fun c => if c == n then none else some (CL_SAT, n) }, { hi := spare, lo := 0, rule := rZero }]

/-- Bytes of a span of a store of `size` bytes, cut at its end, to the host's region. -/
def copyPart (x : Cmd) (s : State) (size : Nat) (spare : Nat) (bytes : Nat → Nat → List Byte) : Ans :=
  x.fieldsThen s (s.partFields x.v size spare) fun s =>
    { s := s.hostPut (fld x.v 125 78) (bytes (fld x.v 77 46) (partBytes x.v size)), status := ST_DONE }

def snapReadBody (x : Cmd) (s : State) : Ans := copyPart x s SNAP_SIZE 13 fun off n => s.data (SNAP_BASE + off) n

def snapReleaseBody (x : Cmd) (s : State) : Ans :=
  x.fieldsThen s (zeroFrom 125) fun s => { s := { s with trace := { s.trace with snapHeld := false } }, status := ST_DONE }

/-- TRACE_READ: the records of a cluster slot's buffer, oldest first. The slot is taken from [13:8]: R437 names no field
for it. -/
def traceReadBody (x : Cmd) (s : State) : Ans :=
  let rs := (s.traceBuf (fld x.v 13 8)).recs
  copyPart x s (32 * rs.length) 7 fun off n => ((rs.flatMap (natLE 32)).drop off).take n

/-! ### Ageing (R420, R421) -/

/-- A cluster's ring oscillators read by its CCP. -/
def ringReading (s : State) (c v : Nat) : State := if c < 68 then { s with age := { s.age with ro := aset s.age.ro c (aget s.age.ro c [] ++ [v]) } } else s

/-- Days to a threshold from daily samples (day, sample), by the least-squares line through the last 30: the distance left
from the latest sample, over the slope, rounded down; none with fewer than seven, or where the slope does not approach. -/
def daysLeft (samples : List (Nat × Nat)) (threshold : Nat) (rising : Bool) : Option Nat :=
  let l := samples.drop (samples.length - 30)
  let n : Int := l.length
  let x (p : Nat × Nat) : Int := p.1
  let y (p : Nat × Nat) : Int := p.2
  let sx := (l.map x).sum
  let num := n * (l.map fun p => x p * y p).sum - sx * (l.map y).sum
  let den := n * (l.map fun p => x p * x p).sum - sx * sx
  let slope := if rising then num else -num
  let last : Int := match l.getLast? with | some p => y p | none => 0
  let dist := if rising then (threshold : Int) - last else last - threshold
  if l.length < 7 || den ≤ 0 || slope ≤ 0 then none
  else if dist ≤ 0 then some 0 else some (min (dist * den / slope).toNat 0xFFFFFE)

/-- Monitors: threshold, and whether samples rise toward it. -/
def monitorOf : Nat → Nat × Bool
  | 1 => (300, true) | 2 => (100000, true) | _ => (120, false)

/-- Unit kind of a monitor's units. -/
def monitorKind : Nat → Nat
  | 1 => UK_CCP | 2 => UK_HBM | _ => UK_VLANE

/-- The day's samples: mean slow-down in 0.01 %, corrected units, and the lowest eye margin in 0.1 mV; the base of each
cluster's slow-down, and the counts that the next day starts from. A unit without a reading of the day has none. -/
def daySamples (s : State) : List (Nat × Nat × Nat) × State :=
  let mean (c : Nat) : Nat := let l := aget s.age.ro c []; if l.isEmpty then 0 else l.sum / l.length
  let last (c : Nat) : Nat := match (aget s.age.samples (1, c) []).getLast? with | some p => p.2 | none => 0
  let base (c : Nat) : Nat := match aget? s.age.roBase c with | some b => b | none => mean c * 10000 / max 1 (10000 - last c)
  let read := (List.range 68).filter fun c => mean c != 0
  let ro := read.map fun c => (1, c, (base c - mean c) * 10000 / max 1 (base c))
  let ce (i : Nat) : Nat := s.counter (.memHbm i) CE_READ + s.counter (.memHbm i) CE_SCRUB
  let hbm := (List.range 12).map fun i => let b := aget s.age.ce0 i 0; (2, i, min (if ce i < b then ce i else ce i - b) (2 ^ 20 - 1))
  let eye := s.age.eye.map fun l => (3, l.1, l.2)
  (ro ++ hbm ++ eye, { s with age := { s.age with ro := [], eye := [], roBase := read.foldl (fun b c => aset b c (base c)) s.age.roBase
                                                  ce0 := (List.range 12).map fun i => (i, ce i) } })

/-- A day's sample entered in a unit's history. -/
def addSample (s : State) (m i v : Nat) : State :=
  let h := aget s.age.samples (m, i) []
  let day := match h.getLast? with | some p => min (p.1 + 1) 65535 | none => 0
  { s with age := { s.age with samples := aset s.age.samples (m, i) (h ++ [(day, v)]) } }

def unitDays (s : State) (m i : Nat) : Option Nat := let t := monitorOf m; daysLeft (aget s.age.samples (m, i) []) t.1 t.2

/-- The pier's predicted end of life: the least days of its stacks (R421). -/
def endOfLife (s : State) : Nat := (List.range 12).foldl (fun e i => match s.unitDays 2 i with | some d => min e d | none => e) 0xFFFFFF

/-- A unit's TREND entry, and its AGEING event where its days fall below 30 or it reaches its threshold; a cluster at its
threshold is retired (R17, R420 to R422). -/
def ageUnit (s : State) (m i v : Nat) : State × Bool :=
  let d := s.unitDays m i
  let day := match (aget s.age.samples (m, i) []).getLast? with | some p => p.1 | none => 0
  let s1 := s.wearAdd (monitorKind m) i WE_TREND 0 (m * 2 ^ 60 + day * 2 ^ 44 + v % 2 ^ 20 * 2 ^ 24 + d.getD 0xFFFFFF)
  let t := monitorOf m
  let reached := if t.2 then v ≥ t.1 else v < t.1
  let due := (match d with | some n => n < 30 | none => false) || reached
  let s2 :=
    if due && !s1.age.posted.contains (m, i) then
      let r := { s1.faultRec EV_AGEING with kind := monitorKind m, index := i, reason := UR_AGEING, value := d.getD 0xFFFFFF + s1.endOfLife * 2 ^ 24 }
      ({ s1 with age := { s1.age with posted := s1.age.posted ++ [(m, i)] } }).event (if m == 1 && reached then ST_DEGRADED else ST_DONE) r.toNat
    else s1
  if m == 1 && reached && s2.unitGood UK_CCP i then s2.queueRetire { kind := UK_CCP, index := i, reason := UR_AGEING } else (s2, false)

/-- The daily sample of every unit (R420, R421). -/
def ageingDay (s : State) : State :=
  let d := s.daySamples
  let s1 := d.1.foldl (fun t x => t.addSample x.1 x.2.1 x.2.2) d.2
  let r := d.1.foldl (fun (a : State × Bool) x => let b := a.1.ageUnit x.1 x.2.1 x.2.2; (b.1, a.2 || b.2)) (s1, false)
  if r.2 then r.1.declareLost r.1.pierId else r.1

/-! ### An F-engine under test (R404) -/

/-- The start-up logic test of an F-engine under test ends: its outcome stands for the next boundary. -/
def noteTest (s : State) (core : Nat) (pass : Bool) : State :=
  if s.gate.underTest == some core then { s with gate := { s.gate with testPass := some pass } } else s

end State

end Sys2Proof.Machine
end

