-- ==== Sys2Proof/Machine/Rdma.lean ====
section
/-! DEFINITION. RDMA and the Ethernet ports: access checks, the poison log, congestion control, echo, addresses and link
training (R333 to R336, R350, R351, R353, R397). -/

namespace Sys2Proof.Machine

namespace State

/-! ### RDMA (R350, R351) -/

def qpOf (s : State) (port qpn : Nat) : Option Qp := s.host.qps.find? fun q => q.port == port && q.qpn == qpn && !q.error

/-- The open region an access names and lies in, where it permits the direction (R350). -/
def regionFor (s : State) (perm va rkey n : Nat) : Option (Nat × Region) :=
  s.host.regions.find? fun r => r.2.rkey == rkey && r.2.perm &&& perm == perm && va < 2 ^ 48 && r.2.holds va n

/-- RDMA to HBM, and to the rings kept there, is held while a compute reset has the stacks in self-refresh (R397). -/
def rdmaHeld (s : State) (va : Nat) : Bool := s.sys.computeReset && !isDdr va

def holdRdma (s : State) (h : HeldRdma) : State := { s with host := { s.host with held := s.host.held ++ [h] } }

/-- Bytes a host write may not change: read-only ones, and within the ring control block those the device writes
(R121, R258, R350, R352). -/
def hostWrites (s : State) (a : Nat) : Bool :=
  if RING_AREA ≤ a && a < RING_AREA + 4096 then a < RING_AREA + 4 || (RING_AREA + 0xC0 ≤ a && a < RING_AREA + 0xC4)
  else isDesc a || s.reach .host true a

/-- Bytes written by the host: those it may not change are discarded. -/
def rdmaPut (s : State) (va : Nat) (bs : List Byte) : State :=
  bs.zipIdx.foldl (fun t x => if s.hostWrites (va + x.2) then t.writeData (va + x.2) [x.1] else t) s

/-- A full submission ring clamps sq_tail to sq_head + sq_size, and reports it (R353). -/
def clampTail (s : State) : State :=
  match s.host.ring with
  | none => s
  | some (q, _) =>
    let ahead := (s.sqTail + 2 ^ 32 - s.sqHead) % 2 ^ 32
    if ahead ≤ 2 ^ q then s
    else
      let used := (s.sqHead + 2 ^ q) % 2 ^ 32
      (s.report { kind := 4, clamp := CL_SAT, widthM1 := 31, bitOff := 0, index := 0, supplied := s.sqTail, used := used } EVENT_ID).writeNat RING_AREA 4 used

/-- Whole words a write covers go in one piece, so that their units are written clean (R264). -/
def rdmaLand (s : State) (va : Nat) (bs : List Byte) : State :=
  if (List.range bs.length).all fun i => s.hostWrites (va + i) then s.writeData va bs else s.rdmaPut va bs

/-- An RDMA WRITE (R350). -/
def rdmaWrite (s : State) (port qpn va rkey : Nat) (bs : List Byte) : State :=
  match s.qpOf port qpn with
  | none => s
  | some _ =>
    match s.regionFor 2 va rkey bs.length with
    | none => s.send (.nakAccess port qpn)
    | some (i, _) =>
      if s.rdmaHeld va then s.holdRdma { port := port, qpn := qpn, va := va, rkey := rkey, len := bs.length, data := some bs }
      else
        let cut := (List.range bs.length).any fun i => !s.hostWrites (va + i)
        let s1 := s.rdmaLand va bs
        let s2 : State := if cut then
            let t := s1.report { kind := 4, clamp := CL_NULL, widthM1 := 47, bitOff := 0, index := i, supplied := va } EVENT_ID
            { t with host := { t.host with rdmaClamps := t.host.rdmaClamps + 1 } }
          else s1
        s2.clampTail.send (.ack port qpn)

/-- One poisoned word read over RDMA: an entry of the poison log, or a count once it holds 1,024 (R351). -/
def poisonEntry (s : State) (a region qpn : Nat) : State :=
  let n := RING_AREA + 0x140
  let s1 := s.writeNat n 8 (min (s.nat n 8 + 1) (2 ^ 64 - 1))
  if s1.host.poisonLog.length < 1024 then { s1 with host := { s1.host with poisonLog := s1.host.poisonLog ++ [(a, region, qpn, s.aclk)] } }
  else { s1 with host := { s1.host with poisonLost := hold32 (s1.host.poisonLost + 1) } }

/-- The poison log's first growth in a step posts an EVENT (R356). -/
def poisonEvent (s : State) : State :=
  if s.host.poisonStep == some s.job.decided then s
  else { s with host := { s.host with poisonStep := some s.job.decided } }.event ST_DONE 0

/-- An RDMA READ (R350, R351). -/
def rdmaRead (s : State) (port qpn va rkey n : Nat) : State :=
  match s.qpOf port qpn with
  | none => s
  | some _ =>
    match s.regionFor 1 va rkey n with
    | none => s.send (.nakAccess port qpn)
    | some (i, _) =>
      if s.rdmaHeld va then s.holdRdma { port := port, qpn := qpn, va := va, rkey := rkey, len := n, data := none }
      else
        let bad := (List.range (cdiv (va % 4 + n) 4)).map (fun j => (va / 4 + j) * 4) |>.filter fun a => s.poisoned a 4
        let s1 := s.noteReads [(va, n)]
        let s2 := bad.foldl (fun t a => t.poisonEntry a i qpn) s1
        (if bad.isEmpty then s2 else s2.poisonEvent).send (.readData port qpn (s.data va n))

/-- Requests held through a compute reset, served in their order (R397). -/
def serveHeld (s : State) : State :=
  s.host.held.foldl (fun t h => match h.data with | some bs => t.rdmaWrite h.port h.qpn h.va h.rkey bs | none => t.rdmaRead h.port h.qpn h.va h.rkey h.len)
    { s with host := { s.host with held := [] } }

def rdmaInvalid (s : State) (port qpn : Nat) : State :=
  match s.qpOf port qpn with | none => s | some _ => s.send (.nakInvalid port qpn)

/-- A queue pair changed. -/
def setQp (s : State) (port qpn : Nat) (f : Qp → Qp) : State :=
  { s with host := { s.host with qps := s.host.qps.map fun q => if q.port == port && q.qpn == qpn then f q else q } }

/-- A congestion notification halves the rate (R336). -/
def cnp (s : State) (port qpn : Nat) : State := s.setQp port qpn fun q => { q with rexp := q.rexp + 1, cut := true }

/-- The rate comes back in steps of one eighth every 100 µs (R336). -/
def rateRestore (s : State) (port qpn : Nat) : State :=
  s.setQp port qpn fun q =>
    let n := min (2 ^ q.rexp) (q.rate + 2 ^ (q.rexp - 3))
    if q.cut then { q with rate := n, cut := n != 2 ^ q.rexp } else q

/-- sq_tail written by the host (R353). -/
def tailWrite (s : State) (tail : Nat) : State := if s.host.ring.isSome then (s.writeNat RING_AREA 4 (tail % 2 ^ 32)).clampTail else s

/-! ### The ports (R333 to R335) -/

/-- An echo request answered, at most 100 a second for each port (R333). -/
def echo (s : State) (port : Nat) (v6 : Bool) (bs : List Byte) : State :=
  let e := s.eth port
  let recent := e.echoes.filter fun t => s.aclk - t < SECOND
  if recent.length ≥ 100 then s.setEth port { e with echoes := recent }
  else (s.setEth port { e with echoes := recent ++ [s.aclk] }).send (.echo port v6 bs)

/-- A neighbour solicitation for one of the port's addresses answered (R333). -/
def neighbour (s : State) (port target : Nat) : State :=
  let e := s.eth port
  if target != 0 && (target == e.v6 || target == e.linkLocal) then s.send (.neighbour port target) else s

/-- A lease granted: the port's address, unless a static one stands (R335). -/
def dhcp (s : State) (port : Nat) (v6 : Bool) (addr : Nat) : State :=
  let e := s.eth port
  if v6 then (if e.static6 then s else (s.setEth port { e with v6 := addr }).send (.lease port true addr))
  else if e.static4 then s else (s.setEth port { e with v4 := addr }).send (.lease port false addr)

/-- A turn of 3 s without a link partner: the other of the two physical layers is tried (R334). -/
def ethTurn (s : State) (port : Nat) : State := let e := s.eth port; if e.up then s else s.setEth port { e with c2m := !e.c2m }

/-- IPv6 link-local address formed from a MAC address by the modified EUI-64 rule. -/
def linkLocalOf (mac : Nat) : Nat :=
  0xFE80 * 2 ^ 112 + ((fld mac 47 24 ^^^ 0x020000) * 2 ^ 40 + 0xFFFE * 2 ^ 24 + fld mac 23 0)

def macOf (s : State) (port : Nat) : Nat := if port == 0 then s.fuses.mac0 else s.fuses.mac1

/-- DHCPv4 client identifier: type 0 and the serial; DHCPv6 DUID-UUID: type 4, then the serial and eight zero bytes (R335). -/
def clientId (s : State) (v6 : Bool) : List Byte :=
  if v6 then [0#8, 4#8] ++ natBE 8 s.fuses.serial ++ List.replicate 8 0#8 else 0#8 :: natBE 8 s.fuses.serial

def hexDigit (n : Nat) : Nat := if n < 10 then 0x30 + n else 0x57 + n

/-- The host name offered: "hm-s4100-", sixteen hexadecimal digits of the serial, "-s" and the slot number (R451). -/
def hostName (s : State) : List Byte :=
  let digits := (List.range 16).map fun i => hexDigit (s.fuses.serial / 16 ^ (15 - i) % 16)
  let slot := s.sys.slotId % 16
  (([0x68, 0x6D, 0x2D, 0x73, 0x34, 0x31, 0x30, 0x30, 0x2D] ++ digits ++ [0x2D, 0x73] ++ (if slot ≥ 10 then [0x31, 0x30 + slot - 10] else [0x30 + slot])).map
    (BitVec.ofNat 8))

/-- The link comes up: its link-local address is formed, and its DHCP clients ask for leases (R334, R335). -/
def ethUp (s : State) (port : Nat) : State :=
  ((s.setEth port { s.eth port with up := true, linkLocal := linkLocalOf (s.macOf port) }).send (.solicit port false (s.clientId false) s.hostName)).send
    (.solicit port true (s.clientId true) s.hostName)

/-- The link goes down: training starts again as 400GBASE-KR4, and queue pairs bound to the port go to the error state
(R334). -/
def ethDown (s : State) (port : Nat) : State :=
  let s1 := s.setEth port { s.eth port with up := false, c2m := false }
  { s1 with host := { s1.host with qps := s1.host.qps.map fun q => if q.port == port then { q with error := true } else q } }

end State

end Sys2Proof.Machine
end

