-- ==== Sys2Proof/Machine/Ring.lean ====
section
/-! DEFINITION. The submission ring, and commands that waited: the body of every opcode, the entries of the ring, and
what runs once the pier is ready or has rejoined (R353, R354, R387, R397). -/

namespace Sys2Proof.Machine

namespace State

/-- The body of an opcode, told apart by the field that tells its rows apart. No unit fails to load through a ring: rings
exist only once a bundle is loaded. -/
def bodyAny (x : Cmd) (s : State) : Ans :=
  let oc := x.oc
  if oc == OC_HELLO then helloBody x s
  else if oc == OC_OPEN then openBody x s
  else if oc == OC_CLOSE then closeBody x s
  else if oc == OC_KEEPALIVE then keepaliveBody x s
  else if oc == OC_NET_CONFIG then netBody x s
  else if oc == OC_ROLL_CALL then rollCallBody x s
  else if oc == OC_REGION_OPEN then regionOpenBody x s
  else if oc == OC_REGION_CLOSE then regionCloseBody x s
  else if oc == OC_RING_SETUP then ringSetupBody x s
  else if oc == OC_QP_CONNECT then qpBody x s
  else if oc == OC_FW_LOAD then (match fwPart x with | 1 => fwDataBody x s | 2 => fwCommitBody [] x s | _ => fwBeginBody x s)
  else if oc == OC_FW_REPLACE then (if bitOf x.v 34 then periodsBody x s else replaceBody x s)
  else if oc == OC_WEARLOG then (if wearDir x == 1 then handBackBody x s else wearReadBody x s)
  else if oc == OC_PLAN_LOAD then planLoadBody x s
  else if oc == OC_PLAN_UPDATE then planUpdateBody x s
  else if oc == OC_PLAN_UNLOAD then planUnloadBody x s
  else if oc == OC_DESC_WRITE then descWriteBody x s
  else if oc == OC_JOB_START then jobStartBody x s
  else if oc == OC_JOB_ASSIGN then jobAssignBody x s
  else if oc == OC_SPAN_CREATE then spanCreateBody x s
  else if oc == OC_SPAN_DELETE then spanDeleteBody x s
  else if oc == OC_SLOT_WRITE then slotWriteBody x s
  else if oc == OC_OPERATOR then operBody x s
  else if oc == OC_SYNC_SIGNAL then signalBody x s
  else if oc == OC_SYNC_WAIT then waitBody x s
  else if oc == OC_FLOORPLAN_READ then floorplanBody x s
  else if oc == OC_COUNTER_READ then counterBody x s
  else if oc == OC_CLAMP_READ then clampReadBody x s
  else if oc == OC_STATUS_QUERY then statusBody x s
  else if oc == OC_POISON_READ then poisonReadBody x s
  else if oc == OC_ABORT then abortBody x s
  else if oc == OC_DRAIN_DETACH then detachBody x s
  else if oc == OC_RETIRE_UNIT then retireUnitBody x s
  else if oc == OC_SNAPSHOT then
    (match fld x.v 127 126 with | 1 => snapReadBody x s | 2 => snapReleaseBody x s | 3 => traceReadBody x s | _ => snapTakeBody x s)
  else if oc == OC_TRACE_CTL then
    (match fld x.v 255 253 with | 1 => traceBody x s | 2 => triggerBody x s | 3 => stopBody x s | 4 => traceStatusBody x s | _ => sampleBody x s)
  else if oc == OC_DEBUG_MODE then debugBody x s
  else { s := s, status := ST_CLAMPED }

/-! ### Commands that waited (R387, R397) -/

/-- A waiting command runs, and completes. -/
def runWaiter (s : State) (w : Nat × HostCmd) : State :=
  let a := bodyAny { oc := w.1, hdr := w.2, block := s.effective w.2 } s
  if a.status == ST_PENDING then a.s else a.s.finish w.2.cmdId a.status a.comp

/-- The commands that waited run in their order. -/
def runWaiting (s : State) : State := s.host.waiting.foldl runWaiter { s with host := { s.host with waiting := [] } }

/-! ### The submission ring (R353, R354) -/

/-- An entry's opcode and packet: a 48-byte header and 208 bytes of block, of which the command's own block is the first
`plen`, or the pointer. -/
def ringEntryOf (bs : List Byte) : Nat × HostCmd :=
  let h := leNat (bs.take 48)
  let flags := fld h 375 368
  let plen := fld h 207 192
  (fld h 367 352,
   { version := fld h 383 376, flags := flags, status := fld h 351 336, session := fld h 335 304, seq := fld h 303 240, cmdId := fld h 239 208
     plen := plen, pier := fld h 191 180, reserved := fld h 179 128, tag := fld h 127 0
     block := (bs.drop 48).take (if bitOf flags 2 then 8 else min plen 208) })

/-- An entry is consumed where there is one and the completion ring has room beyond every pending command. The rings lie
in HBM, and wait for rejoin (R397). -/
def ringReady (s : State) : Bool := s.computing && s.host.ring.isSome && s.sqHead != s.sqTail && s.cqFree > s.pendingCount

/-- The entry at sq_head consumed, checked and run. -/
def consumeEntry (s : State) : State :=
  match s.host.ring with
  | none => s
  | some (q, _) =>
    let i := s.sqHead % 2 ^ q
    let e := ringEntryOf (s.data (SQ_BASE + 256 * i) 256)
    ((s.writeNat (RING_AREA + 0x40) 4 ((s.sqHead + 1) % 2 ^ 32)).acceptRing e.1 e.2 i bodyAny).applyNet

/-! ### The ends of bring-up and of a compute reset -/

/-- The memory test ends, and what waited for it runs. -/
def memReady (s : State) (bad : List Nat) : State :=
  if s.sys.boot == .memTest then (s.memTested bad).runWaiting else s

/-- COMPUTE_RESET_N rises: held RDMA is served, and commands that waited run. -/
def computeBack (s : State) (failed : List (Nat × Nat)) : State :=
  let t := s.computeRise failed
  if s.sys.computeReset && t.computing then t.serveHeld.runWaiting else t

end State

end Sys2Proof.Machine
end

