-- ==== Sys2Proof/Machine/CmdBoot.lean ====
section
/-! DEFINITION. The commands of power, pins, clocks and sensors, and of bring-up (R385 to R399, R440 to R446). -/

namespace Sys2Proof.Machine

/-! ### Power and pins -/

def execPwrEnRise (s : State) : Host.Outcome State Fault Refusal := s.actPin .pwrEnRise fun s => s.pwrRise
def execPwrEnFall (s : State) : Host.Outcome State Fault Refusal := s.actPin .pwrEnFall fun s => s.pwrFall
def execVinUndervoltage (s : State) : Host.Outcome State Fault Refusal := s.actPin .vinUndervoltage fun s => s.undervoltage

/-- A dip to 44 to 48 V for at most 500 µs changes nothing (R440). -/
def execVinDip (s : State) : Host.Outcome State Fault Refusal := s.actPin .vinDip id

def execVinWithinOperatingRange (s : State) : Host.Outcome State Fault Refusal := s.actPin .vinWithinOperatingRange fun s => s.vinEnters
def execResetNFall (s : State) : Host.Outcome State Fault Refusal := s.actPin .resetNFall fun s => s.fullReset
def execResetNRise (slotId : Nat) (s : State) : Host.Outcome State Fault Refusal := s.actPin (.resetNRise slotId) fun s => s.resetRise slotId

/-! ### Bring-up -/

/-- `failed` gives kind and index of the units that failed. -/
def execStartUpTestDone (failed : List (Nat × Nat)) (s : State) : Host.Outcome State Fault Refusal :=
  s.actBoot (.startUpTestDone failed) s.on (s.startSys failed) fun s => s.startUp failed

/-- `failedHbm` gives stacks that failed, `dimms` the capacity of each channel's DIMM. -/
def execMemoryTrainingDone (failedHbm : List Nat) (dimms : Nat) (s : State) : Host.Outcome State Fault Refusal :=
  s.actBoot (.memoryTrainingDone failedHbm dimms) s.on (s.trainSys failedHbm dimms) fun s => s.trained failedHbm dimms

/-- `bad` gives the units that failed the test. -/
def execMemoryTestDone (bad : List Nat) (s : State) : Host.Outcome State Fault Refusal :=
  s.actBoot (.memoryTestDone bad) s.on s.testSys fun s => s.memReady bad

/-! ### Compute reset -/

/-- The pin is heard in every state; what it does is bring-up's and the deck dies'. -/
def execComputeResetNFall (s : State) : Host.Outcome State Fault Refusal :=
  if s.on then s.actBoot .computeResetNFall true s.fallSys fun s => s.computeFall else s.actPin .computeResetNFall fun s => s.computeFall

/-- `failed` gives the units that fail to restart. -/
def execComputeResetNRise (failed : List (Nat × Nat)) (s : State) : Host.Outcome State Fault Refusal :=
  if s.on then s.actBoot (.computeResetNRise failed) true s.riseSys fun s => s.computeBack failed else s.actPin (.computeResetNRise failed) fun s => s.computeBack failed

def execRejoinTimeout (pier : Nat) (s : State) : Host.Outcome State Fault Refusal := s.act (.rejoinTimeout pier) s.on fun s => s.rejoinFails pier

/-! ### Clocks, power and heat -/

def execRootPllLossOfLock (die : Nat) (s : State) : Host.Outcome State Fault Refusal :=
  s.actBoot (.rootPllLossOfLock die) s.on (s.pllSys die) fun s => s.pllLoss die
def execPowerSample (watts : Nat) (s : State) : Host.Outcome State Fault Refusal := s.actPin (.powerSample watts) fun s => s.powerSample watts

/-- Temperatures in 0.01 °C. -/
def execJunctionSample (die centi outlet : Nat) (s : State) : Host.Outcome State Fault Refusal :=
  s.actPin (.junctionSample die centi outlet) fun s => s.junction die centi outlet
def execThermalTrip (s : State) : Host.Outcome State Fault Refusal := s.actPin .thermalTrip fun s => s.thermalTrip

end Sys2Proof.Machine
end

