-- ==== Sys2Proof/Machine/CmdEth.lean ====
section
/-! DEFINITION. Sessions' timers, the rings, RDMA and the Ethernet ports (R333 to R336, R340, R350 to R354). -/

namespace Sys2Proof.Machine

/-- Something that arrives on an Ethernet port. -/
def State.actEth (s : State) (i : Instr) (port : Nat) (f : State → State) : Host.Outcome State Fault Refusal :=
  s.act i (s.hears port) f

/-- Something of an Ethernet port's own: its die runs. -/
def State.actPort (s : State) (i : Instr) (port : Nat) (f : State → State) : Host.Outcome State Fault Refusal :=
  s.act i (s.on && port < 2 && s.dieRuns (4 + port)) f

/-! ### Timers of the host's commands -/

def execSessionIdleTimeout (s : State) : Host.Outcome State Fault Refusal := s.act .sessionIdleTimeout s.on fun s => s.idleTimeout

def execFwReplaceProbationEnd (s : State) : Host.Outcome State Fault Refusal := s.actHost .fwReplaceProbationEnd s.on fun s => s.probationEnd

def execJobStartTimeout (s : State) : Host.Outcome State Fault Refusal := s.act .jobStartTimeout s.on fun s => s.startTimeout

def execSyncWaitTimeout (cmdId : Nat) (s : State) : Host.Outcome State Fault Refusal :=
  s.act (.syncWaitTimeout cmdId) s.on fun s => s.waitTimeout cmdId

/-! ### The rings -/

def execSqTailWrite (tail : Nat) (s : State) : Host.Outcome State Fault Refusal := s.act (.sqTailWrite tail) s.on fun s => s.tailWrite tail

def execRingEntry (s : State) : Host.Outcome State Fault Refusal := s.actHost .ringEntry s.ringReady fun s => s.consumeEntry

/-! ### RDMA -/

def execRdmaWrite (port qpn va rkey : Nat) (data : List Byte) (s : State) : Host.Outcome State Fault Refusal :=
  s.actEth (.rdmaWrite port qpn va rkey data) port fun s => s.rdmaWrite port qpn va rkey data

def execRdmaRead (port qpn va rkey len : Nat) (s : State) : Host.Outcome State Fault Refusal :=
  s.actEth (.rdmaRead port qpn va rkey len) port fun s => s.rdmaRead port qpn va rkey len

/-- An RDMA opcode other than WRITE and READ. -/
def execRdmaInvalidRequest (port qpn opcode : Nat) (s : State) : Host.Outcome State Fault Refusal :=
  s.actEth (.rdmaInvalidRequest port qpn opcode) port fun s => s.rdmaInvalid port qpn

def execCnpReceived (port qpn : Nat) (s : State) : Host.Outcome State Fault Refusal := s.actEth (.cnpReceived port qpn) port fun s => s.cnp port qpn

def execRateRestore (port qpn : Nat) (s : State) : Host.Outcome State Fault Refusal :=
  s.actPort (.rateRestore port qpn) port fun s => s.rateRestore port qpn

/-! ### The ports -/

/-- A frame or packet that uses an unsupported feature, or a fragment: discarded and counted (R333). -/
def execEthUnsupported (port : Nat) (s : State) : Host.Outcome State Fault Refusal :=
  s.actEth (.ethUnsupported port) port fun s => s.bump .host HC_ETH_UNSUPPORTED

def execIcmpEcho (port : Nat) (v6 : Bool) (data : List Byte) (s : State) : Host.Outcome State Fault Refusal :=
  s.actEth (.icmpEcho port v6 data) port fun s => s.echo port v6 data

def execNeighbourDiscovery (port target : Nat) (s : State) : Host.Outcome State Fault Refusal :=
  s.actEth (.neighbourDiscovery port target) port fun s => s.neighbour port target

def execDhcpReply (port : Nat) (v6 : Bool) (addr : Nat) (s : State) : Host.Outcome State Fault Refusal :=
  s.actEth (.dhcpReply port v6 addr) port fun s => s.dhcp port v6 addr

def execEthTrainingTurn (port : Nat) (s : State) : Host.Outcome State Fault Refusal := s.actPort (.ethTrainingTurn port) port fun s => s.ethTurn port

def execEthPortDown (port : Nat) (s : State) : Host.Outcome State Fault Refusal := s.actPort (.ethPortDown port) port fun s => s.ethDown port

def execEthLinkUp (port : Nat) (s : State) : Host.Outcome State Fault Refusal :=
  s.actPort (.ethLinkUp port) port fun s => if (s.eth port).up || !s.unitGood UK_ETH port then s else s.ethUp port

end Sys2Proof.Machine
end

