-- ==== Sys2Proof/Machine/CmdFabric.lean ====
section
/-! DEFINITION. The commands of the viaduct ports: training and lanes, the flits that arrive, and the timers of links and
of a fabric epoch change (R272 to R294). -/

namespace Sys2Proof.Machine

/-- Something of a port: its die runs. -/
def State.actLink (s : State) (i : Instr) (port : Nat) (f : State → State) : Host.Outcome State Fault Refusal :=
  s.act i (s.portRuns port) f

/-- A flit of a row's type arrives on a port that is UP. A type that no row has is any of them. -/
def State.actFlit (s : State) (i : Instr) (type port : Nat) (f : Flit) : Host.Outcome State Fault Refusal :=
  s.act i (s.portRuns port && s.portUp port && flitRow type f) fun s => s.receive port f

/-! ### Lanes and training -/

def execLaneLockLoss (port lane : Nat) (s : State) : Host.Outcome State Fault Refusal :=
  s.actLink (.laneLockLoss port lane) port fun s => s.laneLost port lane

/-- `errors` symbols corrected of `symbols` in the second. -/
def execSymbolRateCheck (port lane errors symbols : Nat) (s : State) : Host.Outcome State Fault Refusal :=
  s.actLink (.symbolRateCheck port lane errors symbols) port fun s => s.symbolRate port lane errors symbols

/-- `margins` gives lane, eye and margin in 0.1 mV. -/
def execEyeMarginCheck (margins : List (Nat × Nat × Nat)) (s : State) : Host.Outcome State Fault Refusal :=
  s.act (.eyeMarginCheck margins) s.on fun s => s.eyeMargins (margins.filter fun m => s.portRuns (m.1 / 4))

def execPortTrainingRetry (port : Nat) (s : State) : Host.Outcome State Fault Refusal :=
  s.actLink (.portTrainingRetry port) port fun s => s.retryTraining port

/-- IDENT arrives on a port that trains (R287). -/
def execFlitIdent (port : Nat) (f : Flit) (s : State) : Host.Outcome State Fault Refusal :=
  s.actLink (.flitIdent port f) port fun s =>
    if (s.port port).state == .training then s.identify port f else if s.portUp port && flitRow FT_IDENT f then s.receive port f else s

/-! ### Flits -/

def execFlitIdle (port : Nat) (f : Flit) (s : State) : Host.Outcome State Fault Refusal := s.actFlit (.flitIdle port f) FT_IDLE port f
def execFlitWrite (port : Nat) (f : Flit) (s : State) : Host.Outcome State Fault Refusal := s.actFlit (.flitWrite port f) FT_WRITE port f
def execFlitReadReq (port : Nat) (f : Flit) (s : State) : Host.Outcome State Fault Refusal := s.actFlit (.flitReadReq port f) FT_READ_REQ port f
def execFlitSignal (port : Nat) (f : Flit) (s : State) : Host.Outcome State Fault Refusal := s.actFlit (.flitSignal port f) FT_SIGNAL port f
def execFlitColl (port : Nat) (f : Flit) (s : State) : Host.Outcome State Fault Refusal := s.actFlit (.flitColl port f) FT_COLL port f
def execFlitCtrl (port : Nat) (f : Flit) (s : State) : Host.Outcome State Fault Refusal := s.actFlit (.flitCtrl port f) FT_CTRL port f
def execFlitRetryReq (port : Nat) (f : Flit) (s : State) : Host.Outcome State Fault Refusal := s.actFlit (.flitRetryReq port f) FT_RETRY_REQ port f

/-! ### Timers -/

def execRetryReqRepeat (port : Nat) (s : State) : Host.Outcome State Fault Refusal :=
  s.actLink (.retryReqRepeat port) port fun s => s.repeatRetryReq port
def execAckTimer (port : Nat) (s : State) : Host.Outcome State Fault Refusal := s.actLink (.ackTimer port) port fun s => s.ackTimer port
def execRetryExhausted (port : Nat) (s : State) : Host.Outcome State Fault Refusal :=
  s.actLink (.retryExhausted port) port fun s => s.retryExhausted port
def execQuietIntervalExpiry (s : State) : Host.Outcome State Fault Refusal := s.act .quietIntervalExpiry s.on fun s => s.quietEnds

end Sys2Proof.Machine
end

