-- ==== Sys2Proof/Machine/CmdHost.lean ====
section
/-! DEFINITION. The commands a host sends: each is its opcode's acceptance with the body of its row. A block whose
discriminating field holds none of the rows' values is any of them (R337 to R365). -/

namespace Sys2Proof.Machine

/-- A command packet of an opcode, on a port that hears it, where its block is of the row. New addresses take effect once
the reply has left (R335). -/
def State.actCommand (s : State) (i : Instr) (oc : Nat) (c : HostCmd) (row : HostCmd → State → Bool) (body : Cmd → State → Ans) : Host.Outcome State Fault Refusal :=
  s.actHost i (s.hears c.port && row c s) fun s => (s.accept oc c body).applyNet

/-- A row that is its opcode's only one. -/
def anyBlock (_ : HostCmd) (_ : State) : Bool := true

/-- An operator command: the row is the operator its record invokes (R319). -/
def State.actOper (s : State) (i : Instr) (op : Nat) (c : HostCmd) : Host.Outcome State Fault Refusal :=
  s.actCommand i OC_OPERATOR c (operRow op) operBody

/-! ### Sessions and the network (R335 to R343) -/

def execHello (c : HostCmd) (s : State) : Host.Outcome State Fault Refusal :=
  s.actCommand (.hello c) OC_HELLO c anyBlock State.helloBody

def execOpen (c : HostCmd) (s : State) : Host.Outcome State Fault Refusal :=
  s.actCommand (.openSession c) OC_OPEN c anyBlock State.openBody

def execClose (c : HostCmd) (s : State) : Host.Outcome State Fault Refusal :=
  s.actCommand (.close c) OC_CLOSE c anyBlock State.closeBody

def execKeepalive (c : HostCmd) (s : State) : Host.Outcome State Fault Refusal :=
  s.actCommand (.keepalive c) OC_KEEPALIVE c anyBlock State.keepaliveBody

def execNetConfig (c : HostCmd) (s : State) : Host.Outcome State Fault Refusal :=
  s.actCommand (.netConfig c) OC_NET_CONFIG c anyBlock State.netBody

def execRollCall (c : HostCmd) (s : State) : Host.Outcome State Fault Refusal :=
  s.actCommand (.rollCall c) OC_ROLL_CALL c anyBlock State.rollCallBody

/-! ### Regions, rings and queue pairs (R349 to R354) -/

def execRegionOpen (c : HostCmd) (s : State) : Host.Outcome State Fault Refusal :=
  s.actCommand (.regionOpen c) OC_REGION_OPEN c anyBlock State.regionOpenBody

def execRegionClose (c : HostCmd) (s : State) : Host.Outcome State Fault Refusal :=
  s.actCommand (.regionClose c) OC_REGION_CLOSE c anyBlock State.regionCloseBody

def execRingSetup (c : HostCmd) (s : State) : Host.Outcome State Fault Refusal :=
  s.actCommand (.ringSetup c) OC_RING_SETUP c anyBlock State.ringSetupBody

def execQpConnect (c : HostCmd) (s : State) : Host.Outcome State Fault Refusal :=
  s.actCommand (.qpConnect c) OC_QP_CONNECT c anyBlock State.qpBody

/-! ### Firmware and the wear log (R366 to R384) -/

def execFwLoadBegin (c : HostCmd) (s : State) : Host.Outcome State Fault Refusal :=
  s.actCommand (.fwLoadBegin c) OC_FW_LOAD c (rowField 127 126 0 2) State.fwBeginBody

def execFwLoadData (c : HostCmd) (s : State) : Host.Outcome State Fault Refusal :=
  s.actCommand (.fwLoadData c) OC_FW_LOAD c (rowField 127 126 1 2) State.fwDataBody

/-- `failed` gives the units whose images did not load (R373). -/
def execFwLoadCommit (c : HostCmd) (failed : List (Nat × Nat)) (s : State) : Host.Outcome State Fault Refusal :=
  s.actCommand (.fwLoadCommit c failed) OC_FW_LOAD c (rowField 127 126 2 2) (State.fwCommitBody failed)

def execFwReplace (c : HostCmd) (s : State) : Host.Outcome State Fault Refusal :=
  s.actCommand (.fwReplace c) OC_FW_REPLACE c (rowField 34 34 0 1) State.replaceBody

def execFwReplacePeriodsOnly (c : HostCmd) (s : State) : Host.Outcome State Fault Refusal :=
  s.actCommand (.fwReplacePeriodsOnly c) OC_FW_REPLACE c (rowField 34 34 1 1) State.periodsBody

def execWearlogRead (c : HostCmd) (s : State) : Host.Outcome State Fault Refusal :=
  s.actCommand (.wearlogRead c) OC_WEARLOG c (rowField 127 127 0 1) State.wearReadBody

def execWearlogHandBack (c : HostCmd) (s : State) : Host.Outcome State Fault Refusal :=
  s.actCommand (.wearlogHandBack c) OC_WEARLOG c (rowField 127 127 1 1) State.handBackBody

/-! ### Plans, jobs, spans and sync objects (R345, R358 to R361) -/

def execPlanLoad (c : HostCmd) (s : State) : Host.Outcome State Fault Refusal :=
  s.actCommand (.planLoad c) OC_PLAN_LOAD c anyBlock State.planLoadBody

def execPlanUpdate (c : HostCmd) (s : State) : Host.Outcome State Fault Refusal :=
  s.actCommand (.planUpdate c) OC_PLAN_UPDATE c anyBlock State.planUpdateBody

def execPlanUnload (c : HostCmd) (s : State) : Host.Outcome State Fault Refusal :=
  s.actCommand (.planUnload c) OC_PLAN_UNLOAD c anyBlock State.planUnloadBody

def execDescWrite (c : HostCmd) (s : State) : Host.Outcome State Fault Refusal :=
  s.actCommand (.descWrite c) OC_DESC_WRITE c anyBlock State.descWriteBody

def execJobStart (c : HostCmd) (s : State) : Host.Outcome State Fault Refusal :=
  s.actCommand (.jobStart c) OC_JOB_START c anyBlock State.jobStartBody

def execJobAssign (c : HostCmd) (s : State) : Host.Outcome State Fault Refusal :=
  s.actCommand (.jobAssign c) OC_JOB_ASSIGN c anyBlock State.jobAssignBody

def execSpanCreate (c : HostCmd) (s : State) : Host.Outcome State Fault Refusal :=
  s.actCommand (.spanCreate c) OC_SPAN_CREATE c anyBlock State.spanCreateBody

def execSpanDelete (c : HostCmd) (s : State) : Host.Outcome State Fault Refusal :=
  s.actCommand (.spanDelete c) OC_SPAN_DELETE c anyBlock State.spanDeleteBody

def execSlotWrite (c : HostCmd) (s : State) : Host.Outcome State Fault Refusal :=
  s.actCommand (.slotWrite c) OC_SLOT_WRITE c anyBlock State.slotWriteBody

def execSyncSignal (c : HostCmd) (s : State) : Host.Outcome State Fault Refusal :=
  s.actCommand (.syncSignal c) OC_SYNC_SIGNAL c anyBlock State.signalBody

def execSyncWait (c : HostCmd) (s : State) : Host.Outcome State Fault Refusal :=
  s.actCommand (.syncWait c) OC_SYNC_WAIT c anyBlock State.waitBody

/-! ### Reads, abort and maintenance (R345 to R348, R351, R364) -/

def execFloorplanRead (c : HostCmd) (s : State) : Host.Outcome State Fault Refusal :=
  s.actCommand (.floorplanRead c) OC_FLOORPLAN_READ c anyBlock State.floorplanBody

def execCounterRead (c : HostCmd) (s : State) : Host.Outcome State Fault Refusal :=
  s.actCommand (.counterRead c) OC_COUNTER_READ c anyBlock State.counterBody

def execClampRead (c : HostCmd) (s : State) : Host.Outcome State Fault Refusal :=
  s.actCommand (.clampRead c) OC_CLAMP_READ c anyBlock State.clampReadBody

def execStatusQuery (c : HostCmd) (s : State) : Host.Outcome State Fault Refusal :=
  s.actCommand (.statusQuery c) OC_STATUS_QUERY c anyBlock State.statusBody

def execPoisonRead (c : HostCmd) (s : State) : Host.Outcome State Fault Refusal :=
  s.actCommand (.poisonRead c) OC_POISON_READ c anyBlock State.poisonReadBody

def execAbort (c : HostCmd) (s : State) : Host.Outcome State Fault Refusal :=
  s.actCommand (.abort c) OC_ABORT c anyBlock abortBody

def execDrainDetach (c : HostCmd) (s : State) : Host.Outcome State Fault Refusal :=
  s.actCommand (.drainDetach c) OC_DRAIN_DETACH c anyBlock State.detachBody

def execRetireUnit (c : HostCmd) (s : State) : Host.Outcome State Fault Refusal :=
  s.actCommand (.retireUnit c) OC_RETIRE_UNIT c anyBlock State.retireUnitBody

/-! ### Snapshot, sampling, trace and debug mode (R426 to R437) -/

def execSnapshotTake (c : HostCmd) (s : State) : Host.Outcome State Fault Refusal :=
  s.actCommand (.snapshotTake c) OC_SNAPSHOT c (rowField 127 126 0 3) State.snapTakeBody

def execSnapshotRead (c : HostCmd) (s : State) : Host.Outcome State Fault Refusal :=
  s.actCommand (.snapshotRead c) OC_SNAPSHOT c (rowField 127 126 1 3) State.snapReadBody

def execSnapshotRelease (c : HostCmd) (s : State) : Host.Outcome State Fault Refusal :=
  s.actCommand (.snapshotRelease c) OC_SNAPSHOT c (rowField 127 126 2 3) State.snapReleaseBody

def execSnapshotTraceRead (c : HostCmd) (s : State) : Host.Outcome State Fault Refusal :=
  s.actCommand (.snapshotTraceRead c) OC_SNAPSHOT c (rowField 127 126 3 3) State.traceReadBody

def execTraceCtlSample (c : HostCmd) (s : State) : Host.Outcome State Fault Refusal :=
  s.actCommand (.traceCtlSample c) OC_TRACE_CTL c (rowField 255 253 0 4) State.sampleBody

def execTraceCtlTrace (c : HostCmd) (s : State) : Host.Outcome State Fault Refusal :=
  s.actCommand (.traceCtlTrace c) OC_TRACE_CTL c (rowField 255 253 1 4) State.traceBody

def execTraceCtlTrigger (c : HostCmd) (s : State) : Host.Outcome State Fault Refusal :=
  s.actCommand (.traceCtlTrigger c) OC_TRACE_CTL c (rowField 255 253 2 4) State.triggerBody

def execTraceCtlStop (c : HostCmd) (s : State) : Host.Outcome State Fault Refusal :=
  s.actCommand (.traceCtlStop c) OC_TRACE_CTL c (rowField 255 253 3 4) State.stopBody

def execTraceCtlStatus (c : HostCmd) (s : State) : Host.Outcome State Fault Refusal :=
  s.actCommand (.traceCtlStatus c) OC_TRACE_CTL c (rowField 255 253 4 4) State.traceStatusBody

def execDebugMode (c : HostCmd) (s : State) : Host.Outcome State Fault Refusal :=
  s.actCommand (.debugMode c) OC_DEBUG_MODE c anyBlock State.debugBody

/-! ### The operator catalogue (R319 to R332) -/

def execMatmul (c : HostCmd) (s : State) : Host.Outcome State Fault Refusal := s.actOper (.matmul c) OPR_MATMUL c

def execAttnFwd (c : HostCmd) (s : State) : Host.Outcome State Fault Refusal := s.actOper (.attnFwd c) OPR_ATTN_FWD c

def execAttnBwd (c : HostCmd) (s : State) : Host.Outcome State Fault Refusal := s.actOper (.attnBwd c) OPR_ATTN_BWD c

def execRmsnorm (c : HostCmd) (s : State) : Host.Outcome State Fault Refusal := s.actOper (.rmsnorm c) OPR_RMSNORM c

def execRmsnormBwd (c : HostCmd) (s : State) : Host.Outcome State Fault Refusal := s.actOper (.rmsnormBwd c) OPR_RMSNORM_BWD c

def execLayernorm (c : HostCmd) (s : State) : Host.Outcome State Fault Refusal := s.actOper (.layernorm c) OPR_LAYERNORM c

def execLayernormBwd (c : HostCmd) (s : State) : Host.Outcome State Fault Refusal := s.actOper (.layernormBwd c) OPR_LAYERNORM_BWD c

def execSoftmax (c : HostCmd) (s : State) : Host.Outcome State Fault Refusal := s.actOper (.softmax c) OPR_SOFTMAX c

def execSoftmaxBwd (c : HostCmd) (s : State) : Host.Outcome State Fault Refusal := s.actOper (.softmaxBwd c) OPR_SOFTMAX_BWD c

def execXent (c : HostCmd) (s : State) : Host.Outcome State Fault Refusal := s.actOper (.xent c) OPR_XENT c

def execOpRoute (c : HostCmd) (s : State) : Host.Outcome State Fault Refusal := s.actOper (.opRoute c) OPR_ROUTE c

def execOpCombine (c : HostCmd) (s : State) : Host.Outcome State Fault Refusal := s.actOper (.opCombine c) OPR_COMBINE c

def execOpCombineBwd (c : HostCmd) (s : State) : Host.Outcome State Fault Refusal := s.actOper (.opCombineBwd c) OPR_COMBINE_BWD c

def execOpRouteBwd (c : HostCmd) (s : State) : Host.Outcome State Fault Refusal := s.actOper (.opRouteBwd c) OPR_ROUTE_BWD c

def execEmbed (c : HostCmd) (s : State) : Host.Outcome State Fault Refusal := s.actOper (.embed c) OPR_EMBED c

def execEmbedBwd (c : HostCmd) (s : State) : Host.Outcome State Fault Refusal := s.actOper (.embedBwd c) OPR_EMBED_BWD c

def execConvert (c : HostCmd) (s : State) : Host.Outcome State Fault Refusal := s.actOper (.convert c) OPR_CONVERT c

def execInit (c : HostCmd) (s : State) : Host.Outcome State Fault Refusal := s.actOper (.init c) OPR_INIT c

def execCollective (c : HostCmd) (s : State) : Host.Outcome State Fault Refusal := s.actOper (.collective c) OPR_COLLECTIVE c

def execUpdate (c : HostCmd) (s : State) : Host.Outcome State Fault Refusal := s.actOper (.update c) OPR_UPDATE c

def execCopyRefresh (c : HostCmd) (s : State) : Host.Outcome State Fault Refusal := s.actOper (.copyRefresh c) OPR_COPY_REFRESH c

def execFwWrite (c : HostCmd) (s : State) : Host.Outcome State Fault Refusal := s.actOper (.fwWrite c) OPR_FW_WRITE c

def execFwRestore (c : HostCmd) (s : State) : Host.Outcome State Fault Refusal := s.actOper (.fwRestore c) OPR_FW_RESTORE c

def execReshard (c : HostCmd) (s : State) : Host.Outcome State Fault Refusal := s.actOper (.reshard c) OPR_RESHARD c

end Sys2Proof.Machine
end

