-- ==== Sys2Proof/Machine/CmdJob.lean ====
section
/-! DEFINITION. The commands of collectives, the gate, recovery, falsework, pages, re-shard and maintenance (R143, R187 to
R194, R205 to R212, R228 to R235, R266, R295 to R318, R374, R402 to R421, R427 to R432). -/

namespace Sys2Proof.Machine

/-- What needs the deck dies. -/
def State.actDeck (s : State) (i : Instr) (f : State → State) : Host.Outcome State Fault Refusal := s.act i s.computing f

/-- What the abutment dies do once the pier is ready. -/
def State.actReady (s : State) (i : Instr) (f : State → State) : Host.Outcome State Fault Refusal :=
  s.act i (s.sys.boot == .ready) f

/-! ### Collectives -/

def execCollectiveEntryStart (s : State) : Host.Outcome State Fault Refusal := s.actDeck .collectiveEntryStart fun s => s.entryStart
def execExpertRowsLanded (coll expert : Nat) (s : State) : Host.Outcome State Fault Refusal :=
  s.actDeck (.expertRowsLanded coll expert) fun s => s.rowsLanded coll expert
def execCollectiveComplete (coll : Nat) (s : State) : Host.Outcome State Fault Refusal :=
  s.actDeck (.collectiveComplete coll) fun s => s.collFinish coll

/-! ### The gate -/

def execHangIntervalExpiry (r : SRef) (s : State) : Host.Outcome State Fault Refusal :=
  s.act (.hangIntervalExpiry r) (s.runs r) fun s => s.hangExpiry r
def execVote (s : State) : Host.Outcome State Fault Refusal := s.actDeck .vote fun s => s.castVote
def execGateDecide (s : State) : Host.Outcome State Fault Refusal := s.actReady .gateDecide fun s => s.gateDecide
def execVoteTimeout (s : State) : Host.Outcome State Fault Refusal := s.actReady .voteTimeout fun s => s.voteTimeout
def execGateResult (s : State) : Host.Outcome State Fault Refusal := s.actReady .gateResult fun s => s.applyResult

/-! ### Falsework, recovery and re-shard -/

def execCopiesVerified (s : State) : Host.Outcome State Fault Refusal := s.actDeck .copiesVerified fun s => s.verifyCopies
def execGenerationLocalWritten (s : State) : Host.Outcome State Fault Refusal := s.actDeck .generationLocalWritten fun s => s.localWritten
def execBuddyShardLands (shard : Nat) (s : State) : Host.Outcome State Fault Refusal :=
  s.actReady (.buddyShardLands shard) fun s => s.buddyShard shard

/-- `layer` is the unit times 65,536 and the layer descriptor's index. -/
def execFwHoldRelease (layer : Nat) (s : State) : Host.Outcome State Fault Refusal :=
  s.actDeck (.fwHoldRelease layer) fun s => s.holdRelease (layer / 65536) (layer % 65536)

def execReshardStageBarrier (s : State) : Host.Outcome State Fault Refusal := s.actDeck .reshardStageBarrier fun s => s.stageBarrier
def execReshardInstallBarrier (s : State) : Host.Outcome State Fault Refusal := s.actDeck .reshardInstallBarrier fun s => s.installBarrier

/-! ### Pages -/

/-- A page command as the page manager takes it: what must wait for a page is kept and tried again. -/
def execPagePartWrite (p : PagePart) (s : State) : Host.Outcome State Fault Refusal := s.actDeck (.pagePartWrite p) fun s => s.runPage (.write p)
def execPagePartRead (p : PagePart) (s : State) : Host.Outcome State Fault Refusal := s.actDeck (.pagePartRead p) fun s => s.runPage (.read p)
def execLease (win dst : Nat) (s : State) : Host.Outcome State Fault Refusal := s.actDeck (.lease win dst) fun s => s.doLease win dst
def execRelease (win : Nat) (s : State) : Host.Outcome State Fault Refusal := s.actDeck (.release win) fun s => s.doRelease win
def execClear (win : Nat) (s : State) : Host.Outcome State Fault Refusal := s.actDeck (.clear win) fun s => s.doClear win
def execSpillLands (entry : Nat) (s : State) : Host.Outcome State Fault Refusal := s.actDeck (.spillLands entry) fun s => s.spillLands entry
def execFetchLands (entry : Nat) (s : State) : Host.Outcome State Fault Refusal := s.actDeck (.fetchLands entry) fun s => s.fetchLands entry

/-! ### Memory, processors, observability and ageing -/

/-- HBM, core and cluster memory are scrubbed while the deck dies run, the DDR5 tier through a compute reset too (R260). -/
def execPatrolScrub (key : Nat) (s : State) : Host.Outcome State Fault Refusal :=
  s.act (.patrolScrub key) (s.computing || (s.sys.boot == .ready && isDdr key)) fun s => s.scrub key

def execWatchdogExpiry (kind index : Nat) (s : State) : Host.Outcome State Fault Refusal :=
  s.act (.watchdogExpiry kind index) s.on fun s => s.watchdog kind index
def execSampleTick (s : State) : Host.Outcome State Fault Refusal := s.actDeck .sampleTick fun s => s.sampleAll
def execTraceFrozen (slot : Nat) (s : State) : Host.Outcome State Fault Refusal := s.actDeck (.traceFrozen slot) fun s => s.freezeTrace slot
def execRoReading (cluster value : Nat) (s : State) : Host.Outcome State Fault Refusal :=
  s.actDeck (.roReading cluster value) fun s => s.ringReading cluster value
def execAgeingDailySample (s : State) : Host.Outcome State Fault Refusal := s.actReady .ageingDailySample fun s => s.ageingDay
def execFEngineInServiceTest (core : Nat) (pass : Bool) (s : State) : Host.Outcome State Fault Refusal :=
  s.actDeck (.fEngineInServiceTest core pass) fun s => s.noteTest core pass

end Sys2Proof.Machine
end

