-- ==== Sys2Proof/Machine/CmdStream.lean ====
section
/-! DEFINITION. The commands of streams and engines: an instruction at the head of a stream, an array's accumulation and
drain, lending, completion, and the trestle unit (R87 to R149, R162 to R166, R174, R197, R228 to R240). -/

namespace Sys2Proof.Machine

/-- Units of 64 bytes that the M-engine moves for a copy (R426). -/
def State.copyUnits (s : State) (r : SRef) (w : IWord) : Nat :=
  let c := CopyDesc.ofNat (s.descNat r w.didx)
  if w.opcode == OP_MBANKREAD then 1560
  else c.rows * cdiv (if w.opcode == OP_MFILL then c.fillBytes else c.rowBytes) 64

/-- A copy at the head, its 64-byte units counted where it issues. -/
def State.countCopy (s t : State) (r : SRef) (w : IWord) : State :=
  if (t.stream r).nextSeq == (s.stream r).nextSeq then t else t.bump (.sample (coreOf r)) 4 (s.copyUnits r w)

/-- Units of 1,024 MAC of the earliest tile of an array (R426). -/
def State.tileMacs (s : State) (core : Nat) (x : Arr) : Nat :=
  match (s.array core x).queue with
  | [] => 0
  | q :: _ => q.place.mLen * q.place.nLen * q.place.kLen / 1024

/-- An array's command: the core whose array it is may be the first to write poison, with a tile of its F-engine where the
array is F. -/
def State.actArray (s : State) (i : Instr) (core : Nat) (x : Arr) (f : State → State) : Host.Outcome State Fault Refusal :=
  s.act i (s.coreRuns core) fun s => State.noteWriter s (f s) (UK_CORE, aget s.fp.coreBind core 0) (x == .f)

/-! ### Steps -/

def execStepBegin (r : SRef) (s : State) : Host.Outcome State Fault Refusal :=
  s.act (.stepBegin r) (s.runs r && s.ownLeaf.isSome) fun s => s.beginStep r

/-! ### Tiles, lending and drains -/

def execTprod (r : SRef) (s : State) : Host.Outcome State Fault Refusal :=
  s.actStream (.tprod r) r fun s => s.atHead r OP_TPROD fun _ w => s.issueTile r w

def execTbprod (r : SRef) (s : State) : Host.Outcome State Fault Refusal :=
  s.actStream (.tbprod r) r fun s => s.atHead r OP_TBPROD fun _ w => s.issueTile r w

def execLend (core : Nat) (s : State) : Host.Outcome State Fault Refusal :=
  s.actStream (.lend core) (.f core) fun s => s.lend core

def execAccumulationComplete (core : Nat) (arr : Arr) (s : State) : Host.Outcome State Fault Refusal :=
  s.actArray (.accumulationComplete core arr) core arr fun s => (s.accumulateTile core arr).bump (.sample core) (5 + arr.code) (s.tileMacs core arr)

def execDrainStart (core : Nat) (arr : Arr) (s : State) : Host.Outcome State Fault Refusal :=
  s.actArray (.drainStart core arr) core arr fun s => s.drainStart core arr

def execDrainComplete (core : Nat) (arr : Arr) (s : State) : Host.Outcome State Fault Refusal :=
  s.act (.drainComplete core arr) (s.coreRuns core) fun s => State.noteIssue s (State.noteIssue s (s.drainComplete core arr) (.f core)) (.b core)

/-! ### The V-engine and the kernels -/

/-- A V-engine program at the head: run, and complete (R110). -/
def State.doVrun (s : State) (r : SRef) (w : IWord) : State :=
  let t := s.vprogRun (coreOf r) (s.stream r).step
  t.setStream r (issued r (t.stream r) w true false)

def execVrun (r : SRef) (s : State) : Host.Outcome State Fault Refusal :=
  s.actStream (.vrun r) r fun s => s.atHead r OP_VRUN fun _ w => if State.kernelCode w then s else s.doVrun r w

def execAttentionKernel (r : SRef) (s : State) : Host.Outcome State Fault Refusal :=
  s.actStream (.attentionKernel r) r fun s => s.atKernel r 0xA1 fun w => s.doKernel r w

def execRoute (r : SRef) (s : State) : Host.Outcome State Fault Refusal :=
  s.actStream (.route r) r fun s => s.atKernel r 0xA2 fun w => s.doRoute r w

def execCombine (r : SRef) (s : State) : Host.Outcome State Fault Refusal :=
  s.actStream (.combine r) r fun s => s.atKernel r 0xA3 fun w => s.doCombine r w

def execCombineBwd (r : SRef) (s : State) : Host.Outcome State Fault Refusal :=
  s.actStream (.combineBwd r) r fun s => s.atKernel r 0xA4 fun w => s.doCombineBwd r w

def execRouteBwd (r : SRef) (s : State) : Host.Outcome State Fault Refusal :=
  s.actStream (.routeBwd r) r fun s => s.atKernel r 0xA5 fun w => s.doRouteBwd r w

/-! ### Conversions -/

def execQamax (r : SRef) (s : State) : Host.Outcome State Fault Refusal :=
  s.actStream (.qamax r) r fun s => s.atHead r OP_QAMAX fun _ w => s.doQamax r w

def execQchamax (r : SRef) (s : State) : Host.Outcome State Fault Refusal :=
  s.actStream (.qchamax r) r fun s => s.atHead r OP_QCHAMAX fun _ w => s.doQchamax r w

def execQconv (r : SRef) (s : State) : Host.Outcome State Fault Refusal :=
  s.actStream (.qconv r) r fun s => s.atHead r OP_QCONV fun _ w => s.doQconv r w

/-! ### Copies -/

def execMcopy (r : SRef) (s : State) : Host.Outcome State Fault Refusal :=
  s.actStream (.mcopy r) r fun s => s.atHead r OP_MCOPY fun _ w => s.countCopy (s.doMcopy r w) r w

def execMfill (r : SRef) (s : State) : Host.Outcome State Fault Refusal :=
  s.actStream (.mfill r) r fun s => s.atHead r OP_MFILL fun _ w => s.countCopy (s.doMfill r w) r w

def execMbankread (r : SRef) (s : State) : Host.Outcome State Fault Refusal :=
  s.actStream (.mbankread r) r fun s => s.atHead r OP_MBANKREAD fun _ w => s.countCopy (s.doBankRead r w) r w

/-! ### Sync and control -/

/-- SWAIT: its wait is all it does (R141). -/
def execSwait (r : SRef) (s : State) : Host.Outcome State Fault Refusal :=
  s.actStream (.swait r) r fun s => s.atHead r OP_SWAIT fun _ _ => s.executed r id

def execSadd (r : SRef) (s : State) : Host.Outcome State Fault Refusal :=
  s.actStream (.sadd r) r fun s => s.atHead r OP_SADD fun _ w => s.doSadd r w

def execSset (r : SRef) (s : State) : Host.Outcome State Fault Refusal :=
  s.actStream (.sset r) r fun s => s.atHead r OP_SSET fun _ w => s.doSset r w

def execSspan (r : SRef) (s : State) : Host.Outcome State Fault Refusal :=
  s.actStream (.sspan r) r fun s => s.atHead r OP_SSPAN fun _ w => s.doSspan r w

def execLoop (r : SRef) (s : State) : Host.Outcome State Fault Refusal :=
  s.actStream (.loop r) r fun s => s.atHead r OP_LOOP fun _ w => s.doLoop r w

def execLoopm (r : SRef) (s : State) : Host.Outcome State Fault Refusal :=
  s.actStream (.loopm r) r fun s => s.atHead r OP_LOOPM fun _ w => s.doLoopM r w

def execEndloop (r : SRef) (s : State) : Host.Outcome State Fault Refusal :=
  s.actStream (.endloop r) r fun s => s.atHead r OP_ENDLOOP fun _ _ => s.doEndLoop r

def execFence (r : SRef) (s : State) : Host.Outcome State Fault Refusal :=
  s.actStream (.fence r) r fun s => s.atHead r OP_FENCE fun _ _ => s.doFence r

def execGate (r : SRef) (s : State) : Host.Outcome State Fault Refusal :=
  s.actStream (.gate r) r fun s => s.atHead r OP_GATE fun _ _ => s.doGate r

def execEnd (r : SRef) (s : State) : Host.Outcome State Fault Refusal :=
  s.actStream (.end_ r) r fun s => s.atHead r OP_END fun _ _ => s.doEnd r

def execBridx (r : SRef) (s : State) : Host.Outcome State Fault Refusal :=
  s.actStream (.bridx r) r fun s => s.atHead r OP_BRIDX fun _ w => s.doBrIdx r w

def execMark (r : SRef) (s : State) : Host.Outcome State Fault Refusal :=
  s.actStream (.mark r) r fun s => s.atHead r OP_MARK fun _ w => s.doMark r w

/-! ### Camber passes -/

def execUp1 (r : SRef) (s : State) : Host.Outcome State Fault Refusal :=
  s.actStream (.up1 r) r fun s => s.atHead r OP_UP1 fun _ w => s.doUp1 r w

def execUp2 (r : SRef) (s : State) : Host.Outcome State Fault Refusal :=
  s.actStream (.up2 r) r fun s => s.atHead r OP_UP2 fun _ w => s.up2Held r w

def execUcopy (r : SRef) (s : State) : Host.Outcome State Fault Refusal :=
  s.actStream (.ucopy r) r fun s => s.atHead r OP_UCOPY fun _ w => s.doUcopy r w

/-! ### Completion and the trestle -/

/-- An instruction completes: its record at level 1, and the step's telemetry header where its last UP2 completes (R126,
R429). -/
def State.completes (s : State) (r : SRef) (seq : Nat) : State :=
  match (s.stream r).inflight.find? fun x => x.seq == seq && x.done && !x.completed with
  | none => s
  | some x =>
    let t := (s.completeInstr r seq).traceInstr r x
    if IWord.opcode x.word == OP_UP2 then t.telComplete (s.stream r).step else t

def execInstructionCompletion (r : SRef) (seq : Nat) (s : State) : Host.Outcome State Fault Refusal :=
  s.act (.instructionCompletion r seq) (s.runs r) fun s => s.completes r seq

def execTrestleJob (cluster : Nat) (s : State) : Host.Outcome State Fault Refusal :=
  s.act (.trestleJob cluster) (s.clusterRuns cluster) fun s => State.noteWriter s (s.doTrestle cluster) (UK_TRESTLE, aget s.fp.clusterBind cluster 0) false

end Sys2Proof.Machine
end

