-- ==== Sys2Proof/Machine/Dispatch.lean ====
section
/-! DEFINITION. The meaning of every command: one arm per row of the opcode table. -/

namespace Sys2Proof.Machine

def exec (i : Instr) (s : State) : Host.Outcome State Fault Refusal :=
  match i with
  | .hello c => Sys2Proof.Machine.execHello c s
  | .openSession c => Sys2Proof.Machine.execOpen c s
  | .close c => Sys2Proof.Machine.execClose c s
  | .keepalive c => Sys2Proof.Machine.execKeepalive c s
  | .sessionIdleTimeout => Sys2Proof.Machine.execSessionIdleTimeout s
  | .netConfig c => Sys2Proof.Machine.execNetConfig c s
  | .rollCall c => Sys2Proof.Machine.execRollCall c s
  | .regionOpen c => Sys2Proof.Machine.execRegionOpen c s
  | .regionClose c => Sys2Proof.Machine.execRegionClose c s
  | .ringSetup c => Sys2Proof.Machine.execRingSetup c s
  | .qpConnect c => Sys2Proof.Machine.execQpConnect c s
  | .fwLoadBegin c => Sys2Proof.Machine.execFwLoadBegin c s
  | .fwLoadData c => Sys2Proof.Machine.execFwLoadData c s
  | .fwLoadCommit c failed => Sys2Proof.Machine.execFwLoadCommit c failed s
  | .fwReplace c => Sys2Proof.Machine.execFwReplace c s
  | .fwReplacePeriodsOnly c => Sys2Proof.Machine.execFwReplacePeriodsOnly c s
  | .fwReplaceProbationEnd => Sys2Proof.Machine.execFwReplaceProbationEnd s
  | .wearlogRead c => Sys2Proof.Machine.execWearlogRead c s
  | .wearlogHandBack c => Sys2Proof.Machine.execWearlogHandBack c s
  | .planLoad c => Sys2Proof.Machine.execPlanLoad c s
  | .planUpdate c => Sys2Proof.Machine.execPlanUpdate c s
  | .planUnload c => Sys2Proof.Machine.execPlanUnload c s
  | .descWrite c => Sys2Proof.Machine.execDescWrite c s
  | .jobStart c => Sys2Proof.Machine.execJobStart c s
  | .jobStartTimeout => Sys2Proof.Machine.execJobStartTimeout s
  | .jobAssign c => Sys2Proof.Machine.execJobAssign c s
  | .spanCreate c => Sys2Proof.Machine.execSpanCreate c s
  | .spanDelete c => Sys2Proof.Machine.execSpanDelete c s
  | .slotWrite c => Sys2Proof.Machine.execSlotWrite c s
  | .syncSignal c => Sys2Proof.Machine.execSyncSignal c s
  | .syncWait c => Sys2Proof.Machine.execSyncWait c s
  | .syncWaitTimeout cmdId => Sys2Proof.Machine.execSyncWaitTimeout cmdId s
  | .floorplanRead c => Sys2Proof.Machine.execFloorplanRead c s
  | .counterRead c => Sys2Proof.Machine.execCounterRead c s
  | .clampRead c => Sys2Proof.Machine.execClampRead c s
  | .statusQuery c => Sys2Proof.Machine.execStatusQuery c s
  | .poisonRead c => Sys2Proof.Machine.execPoisonRead c s
  | .abort c => Sys2Proof.Machine.execAbort c s
  | .drainDetach c => Sys2Proof.Machine.execDrainDetach c s
  | .retireUnit c => Sys2Proof.Machine.execRetireUnit c s
  | .snapshotTake c => Sys2Proof.Machine.execSnapshotTake c s
  | .snapshotRead c => Sys2Proof.Machine.execSnapshotRead c s
  | .snapshotRelease c => Sys2Proof.Machine.execSnapshotRelease c s
  | .snapshotTraceRead c => Sys2Proof.Machine.execSnapshotTraceRead c s
  | .traceCtlSample c => Sys2Proof.Machine.execTraceCtlSample c s
  | .traceCtlTrace c => Sys2Proof.Machine.execTraceCtlTrace c s
  | .traceCtlTrigger c => Sys2Proof.Machine.execTraceCtlTrigger c s
  | .traceCtlStop c => Sys2Proof.Machine.execTraceCtlStop c s
  | .traceCtlStatus c => Sys2Proof.Machine.execTraceCtlStatus c s
  | .debugMode c => Sys2Proof.Machine.execDebugMode c s
  | .matmul c => Sys2Proof.Machine.execMatmul c s
  | .attnFwd c => Sys2Proof.Machine.execAttnFwd c s
  | .attnBwd c => Sys2Proof.Machine.execAttnBwd c s
  | .rmsnorm c => Sys2Proof.Machine.execRmsnorm c s
  | .rmsnormBwd c => Sys2Proof.Machine.execRmsnormBwd c s
  | .layernorm c => Sys2Proof.Machine.execLayernorm c s
  | .layernormBwd c => Sys2Proof.Machine.execLayernormBwd c s
  | .softmax c => Sys2Proof.Machine.execSoftmax c s
  | .softmaxBwd c => Sys2Proof.Machine.execSoftmaxBwd c s
  | .xent c => Sys2Proof.Machine.execXent c s
  | .opRoute c => Sys2Proof.Machine.execOpRoute c s
  | .opCombine c => Sys2Proof.Machine.execOpCombine c s
  | .opCombineBwd c => Sys2Proof.Machine.execOpCombineBwd c s
  | .opRouteBwd c => Sys2Proof.Machine.execOpRouteBwd c s
  | .embed c => Sys2Proof.Machine.execEmbed c s
  | .embedBwd c => Sys2Proof.Machine.execEmbedBwd c s
  | .convert c => Sys2Proof.Machine.execConvert c s
  | .init c => Sys2Proof.Machine.execInit c s
  | .collective c => Sys2Proof.Machine.execCollective c s
  | .update c => Sys2Proof.Machine.execUpdate c s
  | .copyRefresh c => Sys2Proof.Machine.execCopyRefresh c s
  | .fwWrite c => Sys2Proof.Machine.execFwWrite c s
  | .fwRestore c => Sys2Proof.Machine.execFwRestore c s
  | .reshard c => Sys2Proof.Machine.execReshard c s
  | .reshardStageBarrier => Sys2Proof.Machine.execReshardStageBarrier s
  | .reshardInstallBarrier => Sys2Proof.Machine.execReshardInstallBarrier s
  | .sqTailWrite tail => Sys2Proof.Machine.execSqTailWrite tail s
  | .ringEntry => Sys2Proof.Machine.execRingEntry s
  | .rdmaWrite port qpn va rkey data => Sys2Proof.Machine.execRdmaWrite port qpn va rkey data s
  | .rdmaRead port qpn va rkey len => Sys2Proof.Machine.execRdmaRead port qpn va rkey len s
  | .rdmaInvalidRequest port qpn opcode => Sys2Proof.Machine.execRdmaInvalidRequest port qpn opcode s
  | .cnpReceived port qpn => Sys2Proof.Machine.execCnpReceived port qpn s
  | .rateRestore port qpn => Sys2Proof.Machine.execRateRestore port qpn s
  | .ethUnsupported port => Sys2Proof.Machine.execEthUnsupported port s
  | .icmpEcho port v6 data => Sys2Proof.Machine.execIcmpEcho port v6 data s
  | .neighbourDiscovery port target => Sys2Proof.Machine.execNeighbourDiscovery port target s
  | .dhcpReply port v6 addr => Sys2Proof.Machine.execDhcpReply port v6 addr s
  | .ethTrainingTurn port => Sys2Proof.Machine.execEthTrainingTurn port s
  | .ethPortDown port => Sys2Proof.Machine.execEthPortDown port s
  | .pwrEnRise => Sys2Proof.Machine.execPwrEnRise s
  | .pwrEnFall => Sys2Proof.Machine.execPwrEnFall s
  | .vinUndervoltage => Sys2Proof.Machine.execVinUndervoltage s
  | .vinDip => Sys2Proof.Machine.execVinDip s
  | .resetNFall => Sys2Proof.Machine.execResetNFall s
  | .resetNRise slotId => Sys2Proof.Machine.execResetNRise slotId s
  | .startUpTestDone failed => Sys2Proof.Machine.execStartUpTestDone failed s
  | .memoryTrainingDone failedHbm dimms => Sys2Proof.Machine.execMemoryTrainingDone failedHbm dimms s
  | .memoryTestDone bad => Sys2Proof.Machine.execMemoryTestDone bad s
  | .computeResetNFall => Sys2Proof.Machine.execComputeResetNFall s
  | .computeResetNRise failed => Sys2Proof.Machine.execComputeResetNRise failed s
  | .rejoinTimeout pier => Sys2Proof.Machine.execRejoinTimeout pier s
  | .rootPllLossOfLock die => Sys2Proof.Machine.execRootPllLossOfLock die s
  | .powerSample watts => Sys2Proof.Machine.execPowerSample watts s
  | .junctionSample die centi outlet => Sys2Proof.Machine.execJunctionSample die centi outlet s
  | .thermalTrip => Sys2Proof.Machine.execThermalTrip s
  | .laneLockLoss port lane => Sys2Proof.Machine.execLaneLockLoss port lane s
  | .symbolRateCheck port lane errors symbols => Sys2Proof.Machine.execSymbolRateCheck port lane errors symbols s
  | .eyeMarginCheck margins => Sys2Proof.Machine.execEyeMarginCheck margins s
  | .portTrainingRetry port => Sys2Proof.Machine.execPortTrainingRetry port s
  | .flitIdent port f => Sys2Proof.Machine.execFlitIdent port f s
  | .flitIdle port f => Sys2Proof.Machine.execFlitIdle port f s
  | .flitWrite port f => Sys2Proof.Machine.execFlitWrite port f s
  | .flitReadReq port f => Sys2Proof.Machine.execFlitReadReq port f s
  | .flitSignal port f => Sys2Proof.Machine.execFlitSignal port f s
  | .flitColl port f => Sys2Proof.Machine.execFlitColl port f s
  | .flitCtrl port f => Sys2Proof.Machine.execFlitCtrl port f s
  | .flitRetryReq port f => Sys2Proof.Machine.execFlitRetryReq port f s
  | .retryReqRepeat port => Sys2Proof.Machine.execRetryReqRepeat port s
  | .ackTimer port => Sys2Proof.Machine.execAckTimer port s
  | .retryExhausted port => Sys2Proof.Machine.execRetryExhausted port s
  | .quietIntervalExpiry => Sys2Proof.Machine.execQuietIntervalExpiry s
  | .stepBegin r => Sys2Proof.Machine.execStepBegin r s
  | .tprod r => Sys2Proof.Machine.execTprod r s
  | .tbprod r => Sys2Proof.Machine.execTbprod r s
  | .lend core => Sys2Proof.Machine.execLend core s
  | .accumulationComplete core arr => Sys2Proof.Machine.execAccumulationComplete core arr s
  | .drainStart core arr => Sys2Proof.Machine.execDrainStart core arr s
  | .drainComplete core arr => Sys2Proof.Machine.execDrainComplete core arr s
  | .vrun r => Sys2Proof.Machine.execVrun r s
  | .attentionKernel r => Sys2Proof.Machine.execAttentionKernel r s
  | .route r => Sys2Proof.Machine.execRoute r s
  | .combine r => Sys2Proof.Machine.execCombine r s
  | .combineBwd r => Sys2Proof.Machine.execCombineBwd r s
  | .routeBwd r => Sys2Proof.Machine.execRouteBwd r s
  | .qamax r => Sys2Proof.Machine.execQamax r s
  | .qchamax r => Sys2Proof.Machine.execQchamax r s
  | .qconv r => Sys2Proof.Machine.execQconv r s
  | .mcopy r => Sys2Proof.Machine.execMcopy r s
  | .mfill r => Sys2Proof.Machine.execMfill r s
  | .mbankread r => Sys2Proof.Machine.execMbankread r s
  | .swait r => Sys2Proof.Machine.execSwait r s
  | .sadd r => Sys2Proof.Machine.execSadd r s
  | .sset r => Sys2Proof.Machine.execSset r s
  | .sspan r => Sys2Proof.Machine.execSspan r s
  | .loop r => Sys2Proof.Machine.execLoop r s
  | .loopm r => Sys2Proof.Machine.execLoopm r s
  | .endloop r => Sys2Proof.Machine.execEndloop r s
  | .fence r => Sys2Proof.Machine.execFence r s
  | .gate r => Sys2Proof.Machine.execGate r s
  | .end_ r => Sys2Proof.Machine.execEnd r s
  | .bridx r => Sys2Proof.Machine.execBridx r s
  | .mark r => Sys2Proof.Machine.execMark r s
  | .up1 r => Sys2Proof.Machine.execUp1 r s
  | .up2 r => Sys2Proof.Machine.execUp2 r s
  | .ucopy r => Sys2Proof.Machine.execUcopy r s
  | .instructionCompletion r seq => Sys2Proof.Machine.execInstructionCompletion r seq s
  | .trestleJob cluster => Sys2Proof.Machine.execTrestleJob cluster s
  | .collectiveEntryStart => Sys2Proof.Machine.execCollectiveEntryStart s
  | .expertRowsLanded coll expert => Sys2Proof.Machine.execExpertRowsLanded coll expert s
  | .collectiveComplete coll => Sys2Proof.Machine.execCollectiveComplete coll s
  | .hangIntervalExpiry r => Sys2Proof.Machine.execHangIntervalExpiry r s
  | .vote => Sys2Proof.Machine.execVote s
  | .gateDecide => Sys2Proof.Machine.execGateDecide s
  | .voteTimeout => Sys2Proof.Machine.execVoteTimeout s
  | .gateResult => Sys2Proof.Machine.execGateResult s
  | .copiesVerified => Sys2Proof.Machine.execCopiesVerified s
  | .generationLocalWritten => Sys2Proof.Machine.execGenerationLocalWritten s
  | .buddyShardLands shard => Sys2Proof.Machine.execBuddyShardLands shard s
  | .fwHoldRelease layer => Sys2Proof.Machine.execFwHoldRelease layer s
  | .pagePartWrite p => Sys2Proof.Machine.execPagePartWrite p s
  | .pagePartRead p => Sys2Proof.Machine.execPagePartRead p s
  | .lease win dst => Sys2Proof.Machine.execLease win dst s
  | .release win => Sys2Proof.Machine.execRelease win s
  | .clear win => Sys2Proof.Machine.execClear win s
  | .spillLands entry => Sys2Proof.Machine.execSpillLands entry s
  | .fetchLands entry => Sys2Proof.Machine.execFetchLands entry s
  | .patrolScrub key => Sys2Proof.Machine.execPatrolScrub key s
  | .watchdogExpiry kind index => Sys2Proof.Machine.execWatchdogExpiry kind index s
  | .sampleTick => Sys2Proof.Machine.execSampleTick s
  | .traceFrozen slot => Sys2Proof.Machine.execTraceFrozen slot s
  | .roReading cluster value => Sys2Proof.Machine.execRoReading cluster value s
  | .ageingDailySample => Sys2Proof.Machine.execAgeingDailySample s
  | .vinWithinOperatingRange => Sys2Proof.Machine.execVinWithinOperatingRange s
  | .ethLinkUp port => Sys2Proof.Machine.execEthLinkUp port s
  | .fEngineInServiceTest core pass => Sys2Proof.Machine.execFEngineInServiceTest core pass s

end Sys2Proof.Machine
end

