-- ==== Sys2Proof/Safety.lean ====
section
/-! DEFINITION. The terms that statements are made in: what counts as a safe run, the commands heard without power, and a
pier that holds nothing. -/

set_option Elab.async false

namespace Sys2Proof

/-- `k` steps answer next states. -/
def safeFor (k : Nat) (s : Machine.State) : Prop := ∃ t, core.run k s = .next t

/-- Commands of the pins and sensors: power, resets and measurements, heard whether or not the pier runs. -/
def Instr.ofPins : Instr → Bool
  | .pwrEnRise | .pwrEnFall | .vinUndervoltage | .vinDip | .vinWithinOperatingRange | .resetNFall | .resetNRise _
  | .computeResetNFall | .computeResetNRise _ | .powerSample _ | .junctionSample .. | .thermalTrip => true
  | _ => false

/-- The eight rows of flits, each with its type (R274). -/
def flitCommands : List ((Nat → Flit → Instr) × Nat) := [
  (.flitIdent, 7), (.flitIdle, 0), (.flitWrite, 1), (.flitReadReq, 2), (.flitSignal, 3), (.flitColl, 4), (.flitCtrl, 5), (.flitRetryReq, 6)]

/-- The 24 operators, each with its code (R319). -/
def operCommands : List ((HostCmd → Instr) × Nat) := [
  (.matmul, 0x01), (.attnFwd, 0x10), (.attnBwd, 0x11), (.rmsnorm, 0x20), (.rmsnormBwd, 0x21), (.layernorm, 0x22),
  (.layernormBwd, 0x23), (.softmax, 0x24), (.softmaxBwd, 0x25), (.xent, 0x30), (.opRoute, 0x40), (.opCombine, 0x41),
  (.opCombineBwd, 0x42), (.opRouteBwd, 0x43), (.embed, 0x50), (.embedBwd, 0x51), (.convert, 0x60), (.init, 0x61),
  (.collective, 0x70), (.update, 0x80), (.copyRefresh, 0x81), (.fwWrite, 0x90), (.fwRestore, 0x91), (.reshard, 0xA0)]

/-- The rows of instructions that stand at a stream's head, each with its opcode (R123). -/
def streamCommands : List ((SRef → Instr) × Nat) := [
  (.tprod, 0x10), (.tbprod, 0x20), (.vrun, 0x30), (.attentionKernel, 0x30), (.route, 0x30), (.combine, 0x30), (.combineBwd, 0x30),
  (.routeBwd, 0x30), (.qamax, 0x40), (.qchamax, 0x41), (.qconv, 0x42), (.mcopy, 0x50), (.mfill, 0x51), (.mbankread, 0x52),
  (.swait, 0x60), (.sadd, 0x61), (.sset, 0x62), (.sspan, 0x63), (.loop, 0x70), (.loopm, 0x71), (.endloop, 0x72), (.fence, 0x73),
  (.gate, 0x74), (.end_, 0x75), (.bridx, 0x76), (.mark, 0x80), (.up1, 0x90), (.up2, 0x91), (.ucopy, 0x92)]

/-- The rows of kernels, each with its code in a VRUN (R174, R197). -/
def kernelCommands : List ((SRef → Instr) × Nat) := [(.route, 0xA2), (.combine, 0xA3), (.combineBwd, 0xA4), (.routeBwd, 0xA5)]

/-- Rows whose instruction's work is done as it issues, each with its opcode. -/
def engineCommands : List ((SRef → Instr) × Nat) := [(.qamax, 0x40), (.qchamax, 0x41), (.qconv, 0x42), (.up1, 0x90), (.ucopy, 0x92)]

/-- Rows of the engines that write within a core's reach, each with the agent that writes (R250). -/
def confinedCommands (r : SRef) : List (Instr × Machine.Agent) :=
  let k := Machine.State.coreOf r
  [(.vrun r, .vec k), (.attentionKernel r, .vec k), (.route r, .vec k), (.combine r, .vec k), (.combineBwd r, .vec k), (.routeBwd r, .vec k),
   (.qamax r, .vec k), (.qchamax r, .vec k), (.qconv r, .vec k), (.mbankread r, .array k)]

namespace Machine

/-- Nothing is left of a run but fuses, pins and sensors, the fresh-value counter, the queue, and, where rails stand, the
contents of the DDR5 tier. -/
def State.Empty (s : State) : Prop :=
  s = { sys := s.sys, fuses := s.fuses, freeCtr := s.freeCtr, pending := s.pending, mem := s.mem, ecc := s.ecc } ∧
  (∀ c ∈ s.mem, isDdr c.1) ∧ (∀ c ∈ s.ecc, isDdr c.1) ∧ (s.sys.boot = .off → s.mem = [] ∧ s.ecc = [])

/-- A pier whose rails are down, or that is held in reset, is empty. -/
def State.Cold (s : State) : Prop := s.sys.boot = .off ∨ s.sys.boot = .held → s.Empty

/-! ### Commands of the host -/

/-- The item a command packet's header is (R348). -/
def hostItem : Item := { kind := 7, index := 0 }

/-- n/d is at most q, an integer times a power of two. -/
def quotLe (n d : Nat) (q : Nat × Int) : Prop := n * 2 ^ (-q.2).toNat ≤ q.1 * 2 ^ q.2.toNat * d

/-- Two exact values are one: the same NaN or infinity, or equal numbers of one sign. -/
def Ext.Same : Ext → Ext → Prop
  | .nan, .nan => True
  | .inf s, .inf t => s = t
  | .fin s n d, .fin t m e => s = t ∧ n * e = m * d
  | _, _ => False

namespace State

/-- A command packet is run: it is heard, passes checks 1 to 5 of R342, names this pier or none, has no field of its header
clamped to Null, is one that this stage runs, and finds room among pending commands. -/
def Runs (s : State) (oc : Nat) (c : HostCmd) : Prop :=
  s.hears c.port = true ∧ s.checks c oc false = .passed ∧ (c.pier = 0xFFF ∨ c.pier = s.pierId) ∧
  (headerClamps hostItem c oc).any isNull = false ∧
  (c.indirect = true → leNat (c.block.take 8) < 2 ^ 48 ∧ s.opened 1 (leNat (c.block.take 8)) c.plen = true) ∧
  s.stageOf oc c.session = .run ∧ s.pendingCount < 1024

/-- The state a running command's body starts from: its sequence number taken, itself entered in the log, and the clamps of
its header reported. -/
def begin (s : State) (oc : Nat) (c : HostCmd) : State := (s.takeSeq c false).begun c oc false (headerClamps hostItem c oc)

/-- The state after a command whose body gave `a`: completed or PENDING, and answered; of the parts the command can change,
and what follows. -/
def answered (s : State) (i : Instr) (oc : Nat) (c : HostCmd) (a : Ans) : State :=
  s.keepHost i (s.after (s.take ((s.takeSeq c false).concluded c oc false a).applyNet i.writes))

/-- The state after a command of bring-up or of a partial reset whose own effect is `u`, with pins and bring-up as given. -/
def booted (s u : State) (sys : Sys) : State := { s.after u with fuses := burn s.fuses u.fuses, sys := sys }

/-- A port acknowledges once 64 flits have come since it last did (R278). -/
def acked (s : State) (p : Nat) : State := if (s.port p).sinceAck ≥ 64 && s.portUp p then s.sendIdle p else s

/-- The head of a stream, with an opcode, that the sequencer looks at (R123, R125). -/
def AtHead (s : State) (r : SRef) (op : Nat) : Prop :=
  s.runs r = true ∧ s.job.running = true ∧ (s.stream r).phase.live = true ∧ (s.stream r).pc < (s.ctx r).plen ∧ IWord.opcode (s.head r) = op

/-- That head may issue: its wait is satisfied, and no kernel of the stream is open. -/
def HeadReady (s : State) (r : SRef) (op : Nat) : Prop := s.AtHead r op ∧ s.waitOk r (s.head r) = true ∧ kernelOpen (s.stream r) = false

/-- A stream has gone on by one instruction, to an index, phase and loops; no other stream has changed. -/
def GoneOn (s u : State) (r : SRef) (pc : Nat) (phase : Phase) (loops : List LoopFrame) : Prop :=
  (u.stream r).pc = pc ∧ (u.stream r).phase = phase ∧ (u.stream r).loops = loops ∧ (u.stream r).nextSeq = (s.stream r).nextSeq + 1 ∧
  (u.stream r).step = (s.stream r).step ∧ ∀ q, q ≠ r → u.stream q = s.stream q

/-- A stream has gone on past its head, which is in flight with its work done. -/
def Worked (s u : State) (r : SRef) : Prop :=
  s.GoneOn u r ((s.stream r).pc + 1) .ready (s.stream r).loops ∧
  ∃ x, (u.stream r).inflight = (s.stream r).inflight ++ [x] ∧ x.seq = (s.stream r).nextSeq ∧ x.word = s.head r ∧ x.done = true ∧ x.completed = false

/-- Without signals of its stream an instruction changes no memory, fabric or job. -/
def Silent (s u : State) (r : SRef) : Prop :=
  IWord.sigEn (s.head r) = false → (∀ x ∈ (s.stream r).inflight, x.sig = none) → u.mem = s.mem ∧ u.ecc = s.ecc ∧ u.net = s.net ∧ u.job = s.job

/-- A boundary at which nothing but the gate itself acts: nothing waits for it, and memory has no error. -/
def PlainBoundary (s : State) : Prop :=
  s.ecc = [] ∧ s.gate.retire = [] ∧ s.gate.rows = [] ∧ s.gate.update = [] ∧ s.gate.assign = [] ∧ s.gate.abort = false ∧ s.gate.sigFail = false ∧
  s.gate.lastFail = none ∧ s.gate.underTest = none ∧ s.fw.replace = none ∧ s.host.slotWrites = [] ∧ s.host.ops = [] ∧
  s.job.needRecovery = false ∧ s.job.steps = 0 ∧ s.net.change = .idle

/-- Nothing of a session is left (R340). -/
def NoSession (s : State) : Prop :=
  s.host.session = none ∧ s.host.regions = [] ∧ s.host.qps = [] ∧ s.host.ring = none ∧ s.host.waits = []

/-- Clamps of a parameter block's fields reported. -/
def told (s : State) (x : Cmd) (fs : List Field) : State := s.reports (checkFields paramItem x.v fs) x.id

end State

/-- No field of the parameter block is clamped to Null. -/
def Cmd.Fits (x : Cmd) (fs : List Field) : Prop := (checkFields paramItem x.v fs).any State.isNull = false

end Machine

/-- A command as its body sees it. -/
def HostCmd.seen (c : HostCmd) (oc : Nat) (s : Machine.State) : Machine.Cmd := { oc := oc, hdr := c, block := s.effective c }

end Sys2Proof
end

