-- ==== Sys2Proof/Certificates/Slice0/Obligations.lean ====
section
/-! DEFINITION. The statements for the provers. A command's own effect `t` is followed by `s.after t`, what follows from any
change. -/

set_option Elab.async false

open Sys2Proof Sys2Proof.Machine

/-! ### The machine -/

/-- A step runs the command at the front of the queue on the state whose queue is the rest; an empty queue passes one
ACLK period where clocks run, and changes nothing else (DESIGN CHOICE).
Where the manual leaves a point open, the model's choices are those of log entry 1. -/
def Obligations.StepRunsFrontCommand : Prop :=
  (∀ (c : Instr) (s : State), step { s with pending := c :: s.pending } = exec c s) ∧
  (∀ s : State, s.pending = [] → s.on = true → step s = .next { s with aclk := s.aclk + 1 }) ∧
  (∀ s : State, s.pending = [] → s.on = false → step s = .next s)

/-- Every command answers a next state in every state, never a fault or a refusal, and leaves the queue as it is. -/
def Obligations.EveryCommandAnswers : Prop :=
  ∀ (i : Instr) (s : State), ∃ t, exec i s = .next t ∧ t.pending = s.pending

/-- A command changes only the parts it can change itself and those that follow from any change. -/
def Obligations.CommandsChangeOnlyTheirParts : Prop :=
  ∀ (i : Instr) (s t : State), exec i s = .next t → Only (i.writes ++ State.afterParts) s t

/-- Before bring-up begins, and where it has stopped, only pins and sensors are heard. -/
def Obligations.OnlyPinsHeardWhenOff : Prop :=
  ∀ (i : Instr) (s : State), s.on = false → i.ofPins = false → exec i s = .next s

/-- Fuses are only ever burned: marks of units, serial, identity, addresses and keys of the boot ROM stand, an owner
binding once made stands, and no revocation fuse is cleared. -/
def Obligations.FusesOnlyBurn : Prop :=
  ∀ (i : Instr) (s t : State), exec i s = .next t →
    t.fuses.bad = s.fuses.bad ∧ t.fuses.serial = s.fuses.serial ∧ t.fuses.identHash = s.fuses.identHash ∧
    t.fuses.mac0 = s.fuses.mac0 ∧ t.fuses.mac1 = s.fuses.mac1 ∧ t.fuses.romKeys = s.fuses.romKeys ∧
    (∀ h, s.fuses.owner = some h → t.fuses.owner = some h) ∧
    (∀ n, s.fuses.revoked.testBit n = true → t.fuses.revoked.testBit n = true)

/-- Where bring-up stands changes only so: power up and down, reset, and each stage to the next.
Where the manual leaves a point open, the model's choices are those of log entries 164 and 165. -/
def Obligations.BootStagesFollow : Prop :=
  ∀ (i : Instr) (s t : State), exec i s = .next t → t.sys.boot ≠ s.sys.boot →
    match s.sys.boot, t.sys.boot with
    | _, .off => i = .pwrEnFall ∨ i = .vinUndervoltage ∨ i = .thermalTrip
    | .off, .held => i = .pwrEnRise ∨ i = .vinWithinOperatingRange
    | _, .held => i = .resetNFall
    | .held, .testing => ∃ n, i = .resetNRise n
    | .testing, .linked | .testing, .dead => ∃ f, i = .startUpTestDone f
    | .linked, .training => ∃ c f, i = .fwLoadCommit c f
    | .training, .memTest => ∃ f d, i = .memoryTrainingDone f d
    | .memTest, .ready => ∃ b, i = .memoryTestDone b
    | _, _ => False

/-- A pier whose rails are down, or that is held in reset, holds nothing but fuses, pins and, while rails stand, the DDR5
tier: every step keeps this.
Where the manual leaves a point open, the model's choices are those of log entry 7. -/
def Obligations.ColdPierStaysEmpty : Prop :=
  ∀ s t : State, s.Cold → step s = .next t → t.Cold

/-- The state after reset: rails up, RESET_N low, COMPUTE_RESET_N high, and a pier that holds nothing.
Where the manual leaves a point open, the model's choices are those of log entries 2 to 10. -/
def Obligations.ResetIsCold : Prop :=
  State.reset.Cold ∧ State.reset.sys.boot = .held ∧ State.reset.sys.resetN = false ∧ State.reset.sys.computeResetN = true ∧
  State.reset.pending = [] ∧ State.reset.pierId = 0xFFF ∧ State.reset.mem = [] ∧ State.reset.host.session = none ∧
  State.reset.plan.loaded = false ∧ State.reset.fw.bundle = none

/-- Nothing follows from a command where the floor plan is as it was, no slot write is due, no operator is queued, no
host waits, no re-shard was told of an end, and the job is not ending. -/
def Obligations.NothingFollowsWhenCalm : Prop :=
  ∀ s t : State, t.fp.units = s.fp.units → t.fp.coreBind = s.fp.coreBind → t.fp.clusterBind = s.fp.clusterBind →
    t.host.slotWrites = [] → t.host.ops = [] → t.host.waits = [] → t.falsework.reshardDone = [] → t.job.ending = none → s.after t = t

/-! ### Sessions and addresses -/

/-- HELLO answers with the identity block and a fresh challenge, which is kept with the time it was made. NET_CONFIG
completes before what it asks for takes effect: its block is put in force once the reply has left.
Where the manual leaves a point open, the model's choices are those of log entries 126 and 130. -/
def Obligations.HelloAndNetConfig : Prop :=
  (∀ (c : HostCmd) (s : State), s.Runs OC_HELLO c →
     let b := s.begin OC_HELLO c
     let ch := natLE 32 (Config.randomBits b.freeCtr % 2 ^ 256)
     exec (.hello c) s = .next (s.answered (.hello c) OC_HELLO c {
       s := { b with freeCtr := b.freeCtr + 1, host := { b.host with challenge := some (ch, b.aclk) } }
       status := ST_DONE, result := natLE 128 b.identity ++ ch })) ∧
  (∀ (c : HostCmd) (s : State), s.Runs OC_NET_CONFIG c →
     let b := s.begin OC_NET_CONFIG c
     exec (.netConfig c) s = .next (s.answered (.netConfig c) OC_NET_CONFIG c {
       s := { b with host := { b.host with newNet := some (c.seen OC_NET_CONFIG s).v } }, status := ST_DONE }))

/-- OPEN opens a session where none is open or takeover is 1 and it authenticates: its identifier is not 0, its key is
returned wrapped under the owner's key, the owner is bound, the challenge is spent, and a session that was open is closed with
its unconsumed submissions counted. Otherwise it spends the challenge and is refused: REFUSED_STATE where a session is open and
takeover is 0, REFUSED_AUTH where it does not authenticate.
Where the manual leaves a point open, the model's choices are those of log entry 130. -/
def Obligations.OpenAuthenticates : Prop :=
  (∀ (c : HostCmd) (s : State), s.Runs OC_OPEN c →
     let x := c.seen OC_OPEN s
     let b := s.begin OC_OPEN c
     let u := b.told x b.openFields
     let spent : State := { u with host := { u.host with challenge := none } }
     let v := if s.host.session.isSome then
         spent.closeSession.bump .host HC_SUBMIT_DISCARDED (if s.host.ring.isSome then (spent.sqTail + 2 ^ 32 - spent.sqHead) % 2 ^ 32 else 0)
       else spent
     x.Fits b.openFields → (s.host.session = none ∨ bitOf x.v 3366 = true) → u.openAllowed x.block = true →
     ∃ y : Session, y.id ≠ 0 ∧ y.id < 2 ^ 32 ∧ y.key = natLE 32 (Config.randomBits v.freeCtr % 2 ^ 256) ∧ 10 ≤ y.idleS ∧ y.idleS ≤ 3600 ∧ y.seq = none ∧
       exec (.openSession c) s = .next (s.answered (.openSession c) OC_OPEN c {
         s := { v with
           freeCtr := v.freeCtr + 3
           host := { v.host with session := some y }
           fuses := { v.fuses with owner := some (v.fuses.owner.getD (State.openKey x.block).2.2) }
           sys := if v.sys.boot = .linked then { v.sys with keepDdr := bitOf x.v 3365 } else v.sys }
         status := ST_DONE
         result := natLE 4 y.id ++ natBE 384 (beNat (oaepEncrypt (State.openKey x.block).1 (State.openKey x.block).2.1
           (natLE 32 (Config.randomBits (v.freeCtr + 2) % 2 ^ 256)) y.key)) })) ∧
  (∀ (c : HostCmd) (s : State), s.Runs OC_OPEN c →
     let x := c.seen OC_OPEN s
     let b := s.begin OC_OPEN c
     let u := b.told x b.openFields
     let spent : State := { u with host := { u.host with challenge := none } }
     x.Fits b.openFields →
     (s.host.session.isSome = true → bitOf x.v 3366 = false →
       exec (.openSession c) s = .next (s.answered (.openSession c) OC_OPEN c { s := spent, status := ST_STATE })) ∧
     ((s.host.session = none ∨ bitOf x.v 3366 = true) → u.openAllowed x.block = false →
       exec (.openSession c) s = .next (s.answered (.openSession c) OC_OPEN c { s := spent, status := ST_AUTH })))

/-- A session closes on CLOSE, and when its idle timer passes: no session, region, queue pair, ring or host wait is left,
and a loaded plan, a running job, streams and queued operators stand. KEEPALIVE changes nothing else than any accepted
command. -/
def Obligations.SessionsClose : Prop :=
  (∀ (c : HostCmd) (s : State), s.Runs OC_CLOSE c → ∃ t,
    exec (.close c) s = .next (s.answered (.close c) OC_CLOSE c { s := t, status := ST_DONE }) ∧ t.NoSession ∧
    t.plan = s.plan ∧ t.job = s.job ∧ t.streams = s.streams ∧ t.host.ops = s.host.ops) ∧
  (∀ s : State, s.on = true → s.host.session.isSome = true → ∃ t,
    exec .sessionIdleTimeout s = .next (s.after t) ∧ t.NoSession ∧
    t.plan = s.plan ∧ t.job = s.job ∧ t.streams = s.streams ∧ t.host.ops = s.host.ops) ∧
  (∀ (c : HostCmd) (s : State), s.Runs OC_KEEPALIVE c →
    exec (.keepalive c) s = .next (s.answered (.keepalive c) OC_KEEPALIVE c { s := s.begin OC_KEEPALIVE c, status := ST_DONE }))

/-! ### Regions, rings, queue pairs -/

/-- REGION_OPEN takes the lowest free index for a region of the size asked for, cut at the end of the tier, with a fresh
rkey, and answers both; with no index free it is refused. REGION_CLOSE takes the region away and leaves the others.
Where the manual leaves a point open, the model's choices are those of log entries 126, 130 and 132. -/
def Obligations.RegionsOpenAndClose : Prop :=
  (∀ (c : HostCmd) (s : State), s.Runs OC_REGION_OPEN c →
    let x := c.seen OC_REGION_OPEN s
    let a := fld x.v 127 80
    let u := (s.begin OC_REGION_OPEN c).told x ((s.begin OC_REGION_OPEN c).regionFields a)
    let key := Config.randomBits s.freeCtr % 2 ^ 32
    x.Fits ((s.begin OC_REGION_OPEN c).regionFields a) →
    (∀ i, s.freeRegion = some i →
      exec (.regionOpen c) s = .next (s.answered (.regionOpen c) OC_REGION_OPEN c {
        s := { u with
          freeCtr := u.freeCtr + 1
          host := { u.host with regions := aset u.host.regions i {
            base := a, len := 4096 * s.regionPages a (fld x.v 79 50), perm := if fld x.v 49 48 = 0 then 3 else fld x.v 49 48, rkey := key } } }
        status := ST_DONE, result := natLE 4 i ++ natLE 4 key })) ∧
    (s.freeRegion = none →
      exec (.regionOpen c) s = .next (s.answered (.regionOpen c) OC_REGION_OPEN c { s := u, status := ST_RESOURCE }))) ∧
  (∀ (c : HostCmd) (s : State), s.Runs OC_REGION_CLOSE c →
    let x := c.seen OC_REGION_CLOSE s
    let u := (s.begin OC_REGION_CLOSE c).told x (s.begin OC_REGION_CLOSE c).regionCloseFields
    x.Fits (s.begin OC_REGION_CLOSE c).regionCloseFields →
    exec (.regionClose c) s = .next (s.answered (.regionClose c) OC_REGION_CLOSE c {
      s := { u with host := { u.host with regions := u.host.regions.filter fun r => r.1 ≠ fld x.v 127 120 } }, status := ST_DONE }))

/-- RING_SETUP empties both rings and gives them their sizes, each from 16 to 4,096 entries, with regions 0 and 1 over them
and the control block; with a ring command pending it is refused. sq_tail never stands more than the ring's size past sq_head
once it has been written. An entry is consumed only where there is one and the completion ring has room past every pending
command: sq_head goes one on, and the entry is checked and run.
Where the manual leaves a point open, the model's choices are those of log entries 126, 130, 133 and 134. -/
def Obligations.RingsAreSetUpAndBounded : Prop :=
  (∀ (c : HostCmd) (s : State), s.Runs OC_RING_SETUP c →
     let x := c.seen OC_RING_SETUP s
     let u := (s.begin OC_RING_SETUP c).told x State.ringFields
     x.Fits State.ringFields →
     (u.host.log.any (fun r => r.ring && r.status.isNone) = true →
       exec (.ringSetup c) s = .next (s.answered (.ringSetup c) OC_RING_SETUP c { s := u, status := ST_STATE })) ∧
     (u.host.log.any (fun r => r.ring && r.status.isNone) = false → ∃ a : Ans,
       exec (.ringSetup c) s = .next (s.answered (.ringSetup c) OC_RING_SETUP c a) ∧ a.status = ST_DONE ∧
       ∃ q k w r : Nat, 4 ≤ q ∧ q ≤ 12 ∧ 4 ≤ k ∧ k ≤ 12 ∧ (4 ≤ fld x.v 127 124 ∧ fld x.v 127 124 ≤ 12 → q = fld x.v 127 124) ∧
         (4 ≤ fld x.v 123 120 ∧ fld x.v 123 120 ≤ 12 → k = fld x.v 123 120) ∧
         a.s.host.ring = some (q, k) ∧ a.s.sqTail = 0 ∧ a.s.sqHead = 0 ∧ a.s.cqTail = 0 ∧ a.s.cqHead = 0 ∧
         aget? a.s.host.regions 0 = some { base := RING_AREA, len := 4096, perm := 2, rkey := w, base2 := State.SQ_BASE, len2 := 256 * 2 ^ q } ∧
         aget? a.s.host.regions 1 = some { base := RING_AREA, len := 4096, perm := 1, rkey := r, base2 := State.CQ_BASE, len2 := 64 * 2 ^ k } ∧
         a.result = natLE 4 0 ++ natLE 4 w ++ natLE 4 1 ++ natLE 4 r ∧
         Only [.mem, .host, .free] u a.s ∧
         ∀ b, b < RING_AREA ∨ RING_AREA + 0xC4 ≤ b → a.s.byte b = s.byte b)) ∧
  ((∀ (s : State) (tail q k : Nat), s.on = true → s.host.ring = some (q, k) → q ≤ 31 → ∃ t,
     exec (.sqTailWrite tail) s = .next (s.after t) ∧ (t.sqTail + 2 ^ 32 - t.sqHead) % 2 ^ 32 ≤ 2 ^ q ∧ t.sqHead = s.sqHead ∧
     ((tail % 2 ^ 32 + 2 ^ 32 - s.sqHead) % 2 ^ 32 ≤ 2 ^ q → t.sqTail = tail % 2 ^ 32) ∧
     ∀ b, b < RING_AREA ∨ RING_AREA + 4 ≤ b → t.byte b = s.byte b) ∧
   (∀ (s : State) (tail : Nat), s.on = true → s.host.ring = none → exec (.sqTailWrite tail) s = .next (s.after s)) ∧
   (∀ (s : State) (q k : Nat), s.computing = true → s.host.ring = some (q, k) → s.sqHead ≠ s.sqTail → s.pendingCount < s.cqFree →
     let i := s.sqHead % 2 ^ q
     let e := State.ringEntryOf (s.data (State.SQ_BASE + 256 * i) 256)
     exec .ringEntry s = .next (s.keepHost .ringEntry (s.after (s.take
       (((s.writeNat (RING_AREA + 0x40) 4 ((s.sqHead + 1) % 2 ^ 32)).acceptRing e.1 e.2 i State.bodyAny).applyNet) (Instr.writes .ringEntry))))) ∧
   (∀ s : State, s.computing = false ∨ s.host.ring = none ∨ s.sqHead = s.sqTail ∨ s.cqFree ≤ s.pendingCount → exec .ringEntry s = .next s))

/-- QP_CONNECT adds a queue pair on the port it arrives on, where fewer than 16 stand there, and is refused otherwise.
Congestion notifications halve a pair's rate, and a restore step gives an eighth of the full rate back; other pairs, and
everything else, stay.
Where the manual leaves a point open, the model's choices are those of log entries 126, 130, 137 and 141. -/
def Obligations.QueuePairsAndTheirRates : Prop :=
  (∀ (c : HostCmd) (s : State), s.Runs OC_QP_CONNECT c →
     let x := c.seen OC_QP_CONNECT s
     let b := s.begin OC_QP_CONNECT c
     let qpn := Config.randomBits s.freeCtr % 2 ^ 24
     ((s.host.qps.filter fun q => q.port = c.port).length < 16 →
       exec (.qpConnect c) s = .next (s.answered (.qpConnect c) OC_QP_CONNECT c {
         s := { b with freeCtr := s.freeCtr + 2, host := { b.host with qps := s.host.qps ++ [{ port := c.port, qpn := qpn, hostQpn := fld x.v 255 232 }] } }
         status := ST_DONE, result := natLE 4 qpn ++ natLE 4 (Config.randomBits (s.freeCtr + 1) % 2 ^ 24) })) ∧
     (16 ≤ (s.host.qps.filter fun q => q.port = c.port).length →
       exec (.qpConnect c) s = .next (s.answered (.qpConnect c) OC_QP_CONNECT c { s := b, status := ST_RESOURCE }))) ∧
  (∀ (s : State) (port qpn : Nat),
     (s.hears port = true → exec (.cnpReceived port qpn) s = .next (s.after { s with host := { s.host with
       qps := s.host.qps.map fun q => if q.port = port ∧ q.qpn = qpn then { q with rexp := q.rexp + 1, cut := true } else q } })) ∧
     (s.on = true → port < 2 → s.dieRuns (4 + port) = true → ∃ t, exec (.rateRestore port qpn) s = .next (s.after t) ∧
       t = { s with host := { s.host with qps := t.host.qps } } ∧ t.host.qps.length = s.host.qps.length ∧
       ∀ (i : Nat) (q : Qp), s.host.qps[i]? = some q → ∃ r, t.host.qps[i]? = some r ∧ r.rexp = q.rexp ∧
         (q.port = port → q.qpn = qpn → q.cut = true → r.rate = min (2 ^ q.rexp) (q.rate + 2 ^ (q.rexp - 3))) ∧
         (q.port ≠ port ∨ q.qpn ≠ qpn ∨ q.cut = false → r = q)))

/-! ### Sync objects -/

/-- SYNC_SIGNAL adds its amount to an object of mode NONE: the counter holds at its maximum, with ovf set and the event
counted; other objects and all other memory are unchanged. SYNC_WAIT completes at once with the count where it has reached the
value, and otherwise stays pending among at most 256 host waits; its timeout ends it ABORTED with the count.
Where the manual leaves a point open, the model's choices are those of log entry 58. -/
def Obligations.HostSyncCommands : Prop :=
  (∀ (c : HostCmd) (s : State), s.Runs OC_SYNC_SIGNAL c →
     let x := c.seen OC_SYNC_SIGNAL s
     let b := s.begin OC_SYNC_SIGNAL c
     let u := b.told x (b.signalFields x.v)
     let id := fld x.v 127 112
     let sum := s.syncCount id + max 1 (fld x.v 95 64)
     x.Fits (b.signalFields x.v) → ∃ t,
       exec (.syncSignal c) s = .next (s.answered (.syncSignal c) OC_SYNC_SIGNAL c { s := t, status := ST_DONE }) ∧
       s.syncMode id = 0 ∧ t.syncCount id = min sum 0xFFFFFFFF ∧ (∀ j, j % 65536 ≠ id % 65536 → t.syncCount j = s.syncCount j) ∧
       Only [.mem, .ctr, .trace] u t ∧
       (sum ≤ 0xFFFFFFFF → Only [.mem] u t ∧ ∀ a, a < State.syncAddr id + 12 ∨ State.syncAddr id + 16 ≤ a → t.byte a = s.byte a) ∧
       (0xFFFFFFFF < sum → bitOf (t.nat (State.syncAddr id + 4) 4) 29 = true ∧ t.counter .host HC_SYNC_OVERFLOW = hold32 (s.counter .host HC_SYNC_OVERFLOW + 1) ∧
         ∀ a, a < State.syncAddr id + 4 ∨ State.syncAddr id + 16 ≤ a → t.byte a = s.byte a)) ∧
  ((∀ (c : HostCmd) (s : State), s.Runs OC_SYNC_WAIT c →
     let x := c.seen OC_SYNC_WAIT s
     let u := (s.begin OC_SYNC_WAIT c).told x State.waitFields
     let id := fld x.v 127 112
     x.Fits State.waitFields →
     (fld x.v 95 64 ≤ s.syncCount id → s.sys.computeReset = false →
       exec (.syncWait c) s = .next (s.answered (.syncWait c) OC_SYNC_WAIT c { s := u, status := ST_DONE, comp := s.syncCount id })) ∧
     (s.syncCount id < fld x.v 95 64 ∨ s.sys.computeReset = true →
       (256 ≤ s.host.waits.length →
         exec (.syncWait c) s = .next (s.answered (.syncWait c) OC_SYNC_WAIT c { s := u, status := ST_RESOURCE })) ∧
       (s.host.waits.length < 256 → ∃ t,
         exec (.syncWait c) s = .next (s.answered (.syncWait c) OC_SYNC_WAIT c { s := t, status := ST_PENDING }) ∧
         t.host.waits = s.host.waits ++ [{ cmdId := c.cmdId, id := id, value := fld x.v 95 64, timeoutMs := min 600000 (fld x.v 63 32) }] ∧
         Only [.mem, .host] u t ∧ ∀ a, a < State.syncAddr id + 4 ∨ State.syncAddr id + 8 ≤ a → t.byte a = s.byte a))) ∧
   (∀ (n : Nat) (s : State) (w : HostWait), s.on = true → s.host.waits.find? (fun w => w.cmdId == n) = some w → w.timeoutMs ≠ 0 → ∃ t,
     exec (.syncWaitTimeout n) s = .next (s.after t) ∧ t.host.waits = s.host.waits.filter (fun x => x.cmdId != n) ∧
     (∀ q ∈ s.host.log, q.cmdId = n → q.status = none → n ≠ EVENT_ID →
       ∃ r ∈ t.host.log, r.cmdId = n ∧ r.status = some ST_ABORTED ∧ r.result = s.syncCount w.id) ∧
     Only [.mem, .gate, .ctr, .host, .trace] s t ∧ t.host.session = s.host.session ∧ t.host.regions = s.host.regions))

/-! ### Reads -/

/-- What the host reads is written at the destination it names, and nothing else changes: the floor plan report, a command's
clamp entries, and the poison log, which is then empty. STATUS_QUERY answers the record of the log. COUNTER_READ writes the
counters asked for, and with clear = 1 leaves every counter it read at 0 and every other as it was.
Where the manual leaves a point open, the model's choices are those of log entries 126 and 139. -/
def Obligations.HostReads : Prop :=
  ((∀ (c : HostCmd) (s : State), s.Runs OC_FLOORPLAN_READ c →
     let x := c.seen OC_FLOORPLAN_READ s
     let b := s.begin OC_FLOORPLAN_READ c
     x.Fits (b.destFields 21144) →
     exec (.floorplanRead c) s = .next (s.answered (.floorplanRead c) OC_FLOORPLAN_READ c {
       s := (b.told x (b.destFields 21144)).hostPut (fld x.v 127 80) s.floorReport, status := ST_DONE })) ∧
   (∀ (c : HostCmd) (s : State), s.Runs OC_CLAMP_READ c →
     let x := c.seen OC_CLAMP_READ s
     let b := s.begin OC_CLAMP_READ c
     x.Fits (b.clampReadFields x.v) →
     exec (.clampRead c) s = .next (s.answered (.clampRead c) OC_CLAMP_READ c {
       s := (b.told x (b.clampReadFields x.v)).hostPut (fld x.v 95 48) (b.clampsRead x.v), status := ST_DONE })) ∧
   (∀ (c : HostCmd) (s : State), s.Runs OC_POISON_READ c →
     let x := c.seen OC_POISON_READ s
     let b := s.begin OC_POISON_READ c
     let fs := b.destFields s.poisonBytes.length
     let u := ((b.told x fs).hostPut (fld x.v 127 80) s.poisonBytes).writeNat (RING_AREA + 0x140) 8 0
     x.Fits fs →
     exec (.poisonRead c) s = .next (s.answered (.poisonRead c) OC_POISON_READ c {
       s := { u with host := { u.host with poisonLog := [], poisonLost := 0, poisonSeen := 0 } }, status := ST_DONE })) ∧
   (∀ (c : HostCmd) (s : State) (r : LogRec), s.Runs OC_STATUS_QUERY c →
     let x := c.seen OC_STATUS_QUERY s
     let b := s.begin OC_STATUS_QUERY c
     let u := b.told x b.statusFields
     x.Fits b.statusFields → u.logOf (fld x.v 127 96) = some r →
     exec (.statusQuery c) s = .next (s.answered (.statusQuery c) OC_STATUS_QUERY c { s := u, status := ST_DONE, result := u.entryBytes r false }))) ∧
  (∀ (c : HostCmd) (s : State), s.Runs OC_COUNTER_READ c →
     let x := c.seen OC_COUNTER_READ s
     let b := s.begin OC_COUNTER_READ c
     let u := (b.told x (b.counterFields x.v)).hostPut (fld x.v 79 32) (b.countersRead x.v)
     let read := (State.unitsRead x.v).flatMap (State.setWords (fld x.v 127 120))
     x.Fits (b.counterFields x.v) → ∃ t,
       exec (.counterRead c) s = .next (s.answered (.counterRead c) OC_COUNTER_READ c { s := t, status := ST_DONE }) ∧
       Only [.ctr, .gate, .trace] u t ∧ (bitOf x.v 87 = false → t = u) ∧
       (bitOf x.v 87 = true → ∀ k n, n ≠ 15 → t.counter k n = if (k, n) ∈ read then 0 else u.counter k n))

/-! ### Memory -/

/-- A range of memory written is read back, poison included, and no word outside it changes. A write of less than one word
is merged with the old unit, poisoned where that was, and counted; a whole word clears poison. An access outside the populated
memory reads zero without poison, and a write there is discarded. -/
def Obligations.MemoryReadsWhatIsWritten : Prop :=
  (∀ (s : State) (a : Nat) (bs : List (Byte × Bool)), (∀ i < bs.length, s.mapped (a + i) = true) →
     (∀ i, (h : i < bs.length) → ((s.write a bs).byte (a + i)).1 = bs[i].1 ∧ (bs[i].2 = true → ((s.write a bs).byte (a + i)).2 = true)) ∧
     (∀ b, b / 4 * 4 + 4 ≤ a ∨ a + bs.length ≤ b / 4 * 4 → (s.write a bs).byte b = s.byte b) ∧
     (∀ b, b < a ∨ a + bs.length ≤ b → ((s.write a bs).byte b).1 = (s.byte b).1)) ∧
  (∀ (s : State) (a : Nat) (bs : List (Byte × Bool)), (∀ b, b / 4 = a / 4 → s.mapped b = true) → 0 < bs.length →
     (a % 4 + bs.length ≤ 4 → bs.length < 4 →
       (∀ i, (h : i < bs.length) → ((s.write a bs).byte (a + i)).1 = bs[i].1) ∧
       (∀ b, b / 4 = a / 4 → b < a ∨ a + bs.length ≤ b → ((s.write a bs).byte b).1 = (s.byte b).1) ∧
       (∀ b, b / 4 = a / 4 → ((s.write a bs).byte b).2 = (bs.any (·.2) || (s.byte a).2)) ∧
       (s.write a bs).counter (s.memBank (a / 4 * 4)) State.RMW_POISON =
         if (s.byte a).2 then hold32 (s.counter (s.memBank (a / 4 * 4)) State.RMW_POISON + 1) else s.counter (s.memBank (a / 4 * 4)) State.RMW_POISON) ∧
     (a % 4 = 0 → bs.length = 4 → ∀ i, (h : i < 4) → ((s.write a bs).byte (a + i)).2 = bs.any (·.2))) ∧
  (∀ (s : State) (a : Nat) (bs : List (Byte × Bool)), (∀ i < bs.length + 4, s.mapped (a / 4 * 4 + i) = false) →
     s.byte a = (0#8, false) ∧ s.write a bs = s)

/-- A single flipped data bit of a stored unit is corrected and one flipped check bit is harmless; two flipped bits of data
deliver a poisoned word. The patrol scrubber rewrites a unit that can be corrected, which then reads as it did, poisons one that
cannot, and sets no gate fault.
Where the manual leaves a point open, the model's choices are those of log entry 170. -/
def Obligations.ErrorsAreCorrectedAndScrubbed : Prop :=
  (∀ (m e : List (Nat × Byte)) (k w : Nat) (p : Bool),
     let clean : Byte := if p then eccPoison else 0#8
     (∀ j < 32, deliver (putWord m k (w ^^^ 2 ^ j)) (mput e k (clean ^^^ BitVec.ofNat 8 (eccColumns.getD j 0))) k = (BitVec.ofNat 32 w, p)) ∧
     (∀ i < 7, deliver (putWord m k w) (mput e k (clean ^^^ BitVec.ofNat 8 (2 ^ i))) k = (BitVec.ofNat 32 w, p)) ∧
     (∀ i < 32, ∀ j < 32, i ≠ j →
       (deliver (putWord m k (w ^^^ 2 ^ i ^^^ 2 ^ j)) (mput e k (clean ^^^ BitVec.ofNat 8 (eccColumns.getD i 0) ^^^ BitVec.ofNat 8 (eccColumns.getD j 0))) k).2 = true)) ∧
  (∀ (s : State) (k : Nat), s.computing = true ∨ (s.sys.boot = .ready ∧ isDdr k = true) →
     (k % 4 ≠ 0 ∨ s.mapped (addrOf s.localGib k) = false → exec (.patrolScrub k) s = .next (s.after s)) ∧
     (k % 4 = 0 → s.mapped (addrOf s.localGib k) = true → ∃ u, exec (.patrolScrub k) s = .next (s.after u) ∧ u.job = s.job ∧
       (∀ j, j ≠ k → mget u.ecc j = mget s.ecc j) ∧ (∀ j, j < k ∨ k + 4 ≤ j → mget u.mem j = mget s.mem j) ∧
       (syndromeOf (mget s.ecc k) = .clean → Only [.ctr, .trace] s u) ∧
       (syndromeOf (mget s.ecc k) ≠ .uncorrected → deliver u.mem u.ecc k = deliver s.mem s.ecc k ∧ syndromeOf (mget u.ecc k) = .clean) ∧
       (syndromeOf (mget s.ecc k) = .uncorrected → u.mem = s.mem ∧ mget u.ecc k = eccPoison)))

/-! ### Firmware and the wear log -/

/-- FW_LOAD before a bundle is loaded: BEGIN starts staging with the bundle's length, and DATA takes each chunk in its place.
COMMIT of a bundle staged whole: one that fails its checks is REFUSED_AUTH and burns nothing; one that passes burns the
revocations it names, loads every image and starts memory training, and stays pending; missing chunks are counted in a refusal.
Where the manual leaves a point open, the model's choices are those of log entries 149 and 150. -/
def Obligations.FirmwareLoads : Prop :=
  ((∀ (c : HostCmd) (s : State), s.Runs OC_FW_LOAD c → rowField 127 126 0 2 c s = true →
     let x := c.seen OC_FW_LOAD s
     let u := (s.begin OC_FW_LOAD c).told x State.fwBeginFields
     x.Fits State.fwBeginFields →
     (s.sys.boot = .linked → exec (.fwLoadBegin c) s = .next (s.answered (.fwLoadBegin c) OC_FW_LOAD c {
       s := { u with fw := { u.fw with staging := some (fld x.v 125 99, []) } }, status := ST_DONE })) ∧
     (s.sys.boot ≠ .linked → exec (.fwLoadBegin c) s = .next (s.answered (.fwLoadBegin c) OC_FW_LOAD c { s := u, status := ST_STATE }))) ∧
   (∀ (c : HostCmd) (s : State) (total : Nat) (got : List (Nat × List Byte)), s.Runs OC_FW_LOAD c → rowField 127 126 1 2 c s = true →
     let x := c.seen OC_FW_LOAD s
     let y : Cmd := { x with block := x.block.take 16 }
     let u := (s.begin OC_FW_LOAD c).told y (s.begin OC_FW_LOAD c).fwDataFields
     y.Fits (s.begin OC_FW_LOAD c).fwDataFields → s.sys.boot = .linked → s.fw.staging = some (total, got) →
     exec (.fwLoadData c) s = .next (s.answered (.fwLoadData c) OC_FW_LOAD c {
       s := { u with fw := { u.fw with staging := some (total, aset got (fld y.v 125 112) (x.block.drop 16)) } }, status := ST_DONE }))) ∧
  (∀ (c : HostCmd) (failed : List (Nat × Nat)) (s : State) (g : Nat × List (Nat × List Byte)), s.Runs OC_FW_LOAD c → rowField 127 126 2 2 c s = true →
     let x := c.seen OC_FW_LOAD s
     let u := (s.begin OC_FW_LOAD c).told x State.fwCommitFields
     let k := checkBundle s.fuses (State.stagedBytes g)
     x.Fits State.fwCommitFields → s.sys.boot = .linked → s.fw.staging = some g →
     (State.missingChunks g ≠ [] → ∃ a, exec (.fwLoadCommit c failed) s = .next (s.answered (.fwLoadCommit c failed) OC_FW_LOAD c a) ∧
       a.s = u ∧ a.status = ST_STATE ∧ a.result = natLE 4 (State.missingChunks g).length ++ natLE 4 ((State.missingChunks g).headD 0)) ∧
     (State.missingChunks g = [] → k.2 = none →
       exec (.fwLoadCommit c failed) s = .next (s.answered (.fwLoadCommit c failed) OC_FW_LOAD c { s := u.reports k.1 c.cmdId, status := ST_AUTH })) ∧
     (∀ b, State.missingChunks g = [] → k.2 = some b → (∀ f ∈ failed, f.1 ≠ UK_DMP) → (∀ d < 4, s.unitGood UK_DMP d = true) → ∃ t,
       exec (.fwLoadCommit c failed) s = .next (s.answered (.fwLoadCommit c failed) OC_FW_LOAD c { s := t, status := ST_PENDING }) ∧
       t.sys = { s.sys with boot := .training } ∧ t.fw.bundle = some b ∧ t.fw.loadCmd = some c.cmdId ∧
       t.fuses = { s.fuses with revoked := s.fuses.revoked ||| burned (State.stagedBytes g) } ∧ t.fw.periods = State.loadPeriods x.v b ∧
       Only [.sys, .fuses, .fp, .fw] (u.reports k.1 c.cmdId) t))

/-- FW_REPLACE of a checked bundle of the same interface: the image of the dispatch class waits for a step boundary of a
running job, or is taken at once; of another class the first good processor restarts with it under probation, and the rest follow
when its 10 s have passed. PERIODS_ONLY changes the watchdog period alone. A watchdog that expires in probation puts the old
image back; another expiry is counted, and the third within 600 s retires the processor.
Where the manual leaves a point open, the model's choices are those of log entries 151 to 153. -/
def Obligations.ReplacementsAndWatchdogs : Prop :=
  ((∀ (c : HostCmd) (s : State) (b old : BundleSt) (im : Image), s.Runs OC_FW_REPLACE c → rowField 34 34 0 1 c s = true →
     let x := c.seen OC_FW_REPLACE s
     let cls := fld x.v 127 124
     let fs := (s.begin OC_FW_REPLACE c).replaceFields x.v
     let bs := s.data (fld x.v 123 76) (fld x.v 75 49)
     x.Fits fs → (checkBundle s.fuses bs).2 = some b → s.fw.bundle = some old → b.images.find? (fun m => m.cls == cls) = some im →
     b.iface = old.iface → s.fw.replace = none →
     ∃ a, exec (.fwReplace c) s = .next (s.answered (.fwReplace c) OC_FW_REPLACE c a) ∧ a.s.fuses.revoked = s.fuses.revoked ||| burned bs ∧
       a.s.fw.bundle = s.fw.bundle ∧
       (cls = 6 → s.job.running = true → a.status = ST_PENDING ∧ a.s.fw.versions = s.fw.versions ∧
         a.s.fw.replace = some { cmdId := c.cmdId, image := im, first := (6, 0) }) ∧
       (cls = 6 → s.job.running = false → a.status = ST_DONE ∧ a.comp = im.version ∧ a.s.fw.replace = none ∧
         a.s.fw.versions = aset s.fw.versions (6, 0) im.version) ∧
       (∀ p ps, cls ≠ 6 → s.goodProcessors cls = p :: ps → a.status = ST_PENDING ∧ a.s.fw.versions = aset s.fw.versions p im.version ∧
         a.s.fw.replace = some { cmdId := c.cmdId, image := im, first := p, before := s.fw.versions } ∧
         ∃ w, a.s.fw.wear.getLast? = some w ∧ w.kind = p.1 ∧ w.index = p.2 ∧ w.event = WE_VERSION ∧ w.value = im.version)) ∧
   (∀ (c : HostCmd) (s : State), s.Runs OC_FW_REPLACE c → rowField 34 34 1 1 c s = true →
     let x := c.seen OC_FW_REPLACE s
     let u := (s.begin OC_FW_REPLACE c).told x ((s.begin OC_FW_REPLACE c).replaceFields x.v)
     x.Fits ((s.begin OC_FW_REPLACE c).replaceFields x.v) →
     exec (.fwReplacePeriodsOnly c) s = .next (s.answered (.fwReplacePeriodsOnly c) OC_FW_REPLACE c {
       s := if min 10000 (fld x.v 48 35) = 0 then u
            else { u with fw := { u.fw with periods := aset u.fw.periods (fld x.v 127 124) (min 10000 (fld x.v 48 35)) } }
       status := ST_DONE })) ∧
   (∀ (s : State) (r : ReplaceSt), s.on = true → s.fw.replace = some r → r.image.cls ≠ 6 → ∃ t,
     exec .fwReplaceProbationEnd s = .next (s.keepHost .fwReplaceProbationEnd (s.after t)) ∧ t.fw.replace = none ∧
     (∀ p ∈ s.goodProcessors r.image.cls, p ≠ r.first → aget t.fw.versions p 0 = r.image.version) ∧
     (∀ p, p ∉ s.goodProcessors r.image.cls ∨ p = r.first → aget t.fw.versions p 0 = aget s.fw.versions p 0))) ∧
  (∀ (s : State) (kind i : Nat), s.on = true →
     let ts := (aget s.fw.expiries (kind, i) []).filter fun t => decide (s.aclk - t ≤ 600 * SECOND)
     (s.watched kind i = false → exec (.watchdogExpiry kind i) s = .next (s.after s)) ∧
     (s.watched kind i = true →
       (∀ r, s.fw.replace = some r → r.first = (kind, i) → ∃ u, exec (.watchdogExpiry kind i) s = .next (s.after u) ∧
         u.fw = { s.fw with replace := none, versions := r.before } ∧ u.fp = s.fp) ∧
       (s.fw.replace = none → ts.length < 2 → ∃ u, exec (.watchdogExpiry kind i) s = .next (s.after u) ∧
         u.fw = { s.fw with expiries := aset s.fw.expiries (kind, i) (ts ++ [s.aclk]) } ∧ u.fp = s.fp ∧ u.gate = s.gate ∧ u.job = s.job) ∧
       (s.fw.replace = none → 2 ≤ ts.length → kind = UK_CCP → s.job.running = true → ∃ u, exec (.watchdogExpiry kind i) s = .next (s.after u) ∧
         u.fw = { s.fw with expiries := aset s.fw.expiries (kind, i) [] } ∧ u.gate.retire = s.gate.retire ++ [{ kind := kind, index := i, reason := UR_WATCHDOG }] ∧
         (aget u.job.faults s.job.decided 0).testBit FB_UNIT = true)))

/-- The wear log is written, signed, where the host asks; a log handed back is taken up once after a start, where no plan is
loaded and its serial and signature are this module's, and is otherwise refused. The log holds 65,536 entries: a full one drops
its oldest TREND entry, or its oldest where none remains, and counts it.
Where the manual leaves a point open, the model's choices are those of log entry 154. -/
def Obligations.WearLog : Prop :=
  ((∀ (c : HostCmd) (s : State), s.Runs OC_WEARLOG c → rowField 127 127 0 1 c s = true →
     let x := c.seen OC_WEARLOG s
     let fs := (s.begin OC_WEARLOG c).wearReadFields x.v
     x.Fits fs →
     exec (.wearlogRead c) s = .next (s.answered (.wearlogRead c) OC_WEARLOG c {
       s := ((s.begin OC_WEARLOG c).told x fs).hostPut (fld x.v 126 79) (s.wearBytes.take (fld x.v 78 51)), status := ST_DONE })) ∧
   (∀ (c : HostCmd) (s : State), s.Runs OC_WEARLOG c → rowField 127 127 1 1 c s = true →
     let x := c.seen OC_WEARLOG s
     let fs := (s.begin OC_WEARLOG c).handBackFields x.v
     let u := (s.begin OC_WEARLOG c).told x fs
     let bs := s.data (fld x.v 126 79) (fld x.v 78 51)
     let h := leNat (bs.take 64)
     let m := fld h 383 367
     let good := fld h 511 448 = s.fuses.serial % 2 ^ 64 ∧ m ≤ 65536 ∧ slice bs (64 + 32 * m) 384 = logSignature (bs.take (64 + 32 * m))
     x.Fits fs →
     (s.plan.loaded = true ∨ s.fw.handedBack = true →
       exec (.wearlogHandBack c) s = .next (s.answered (.wearlogHandBack c) OC_WEARLOG c { s := u, status := ST_STATE })) ∧
     (s.plan.loaded = false → s.fw.handedBack = false → ¬ good →
       exec (.wearlogHandBack c) s = .next (s.answered (.wearlogHandBack c) OC_WEARLOG c { s := u, status := ST_AUTH })) ∧
     (s.plan.loaded = false → s.fw.handedBack = false → good → ∃ t,
       exec (.wearlogHandBack c) s = .next (s.answered (.wearlogHandBack c) OC_WEARLOG c { s := t, status := ST_DONE }) ∧
       t.fw.handedBack = true ∧ t.fw.wearStart = fld h 415 384 + 1 ∧ t.fw.wear.length ≤ 65536 ∧ Only [.fw, .age] u t))) ∧
  (∀ (s : State) (w : WearRec), let t := s.wearPut w
     (s.fw.wear.length < 65536 → t.fw.wear = s.fw.wear ++ [w] ∧ t.fw.wearDropped = s.fw.wearDropped) ∧
     (s.fw.wear.length = 65536 → t.fw.wear.length = 65536 ∧ t.fw.wearDropped = hold32 (s.fw.wearDropped + 1) ∧
       (∀ a x b, s.fw.wear = a ++ x :: b → x.event = WE_TREND → (∀ y ∈ a, y.event ≠ WE_TREND) → t.fw.wear = a ++ b ++ [w]) ∧
       ((∀ y ∈ s.fw.wear, y.event ≠ WE_TREND) → t.fw.wear = s.fw.wear.drop 1 ++ [w])))

/-! ### RDMA and rings -/

/-- An RDMA request that names no queue pair of its port is dropped; one outside every region that permits it is answered
with an access error; neither changes anything else. A WRITE inside a region lands its bytes and is acknowledged, and no other
word of memory changes but sq_tail where the ring was overfilled; a READ answers the bytes as they stand. During a compute reset
both wait where their address is not in the DDR5 tier.
Where the manual leaves a point open, the model's choices are those of log entry 134. -/
def Obligations.RdmaWithinRegions : Prop :=
  (∀ (s : State) (port qpn va rkey n : Nat) (bs : List Byte) (op : Nat), s.hears port = true →
     (s.qpOf port qpn = none →
       exec (.rdmaWrite port qpn va rkey bs) s = .next (s.after s) ∧ exec (.rdmaRead port qpn va rkey n) s = .next (s.after s) ∧
       exec (.rdmaInvalidRequest port qpn op) s = .next (s.after s)) ∧
     ((s.qpOf port qpn).isSome = true →
       (s.regionFor 2 va rkey bs.length = none → exec (.rdmaWrite port qpn va rkey bs) s = .next (s.after (s.send (.nakAccess port qpn)))) ∧
       (s.regionFor 1 va rkey n = none → exec (.rdmaRead port qpn va rkey n) s = .next (s.after (s.send (.nakAccess port qpn)))) ∧
       exec (.rdmaInvalidRequest port qpn op) s = .next (s.after (s.send (.nakInvalid port qpn))))) ∧
  (∀ (s : State) (port qpn va rkey : Nat), s.hears port = true → (s.qpOf port qpn).isSome = true →
     (∀ bs : List Byte, (s.regionFor 2 va rkey bs.length).isSome = true →
       (s.rdmaHeld va = true → exec (.rdmaWrite port qpn va rkey bs) s =
         .next (s.after (s.holdRdma { port := port, qpn := qpn, va := va, rkey := rkey, len := bs.length, data := some bs }))) ∧
       (s.rdmaHeld va = false → ∃ t, exec (.rdmaWrite port qpn va rkey bs) s = .next (s.after t) ∧
         t.host.out = s.host.out ++ [.ack port qpn] ∧ t.host.regions = s.host.regions ∧ t.host.qps = s.host.qps ∧ t.host.session = s.host.session ∧
         ((∀ i < bs.length, s.hostWrites (va + i) = true) → s.host.ring = none → t = (s.writeData va bs).send (.ack port qpn)) ∧
         ∀ b, b / 4 * 4 + 4 ≤ va ∨ va + bs.length ≤ b / 4 * 4 → b < RING_AREA ∨ RING_AREA + 4 ≤ b → t.byte b = s.byte b)) ∧
     (∀ n : Nat, (s.regionFor 1 va rkey n).isSome = true →
       (s.rdmaHeld va = true → exec (.rdmaRead port qpn va rkey n) s =
         .next (s.after (s.holdRdma { port := port, qpn := qpn, va := va, rkey := rkey, len := n, data := none }))) ∧
       (s.rdmaHeld va = false → ∃ t, exec (.rdmaRead port qpn va rkey n) s = .next (s.after t) ∧
         t.host.out.getLast? = some (.readData port qpn (s.data va n)) ∧
         t.host.regions = s.host.regions ∧ t.host.qps = s.host.qps ∧ t.host.session = s.host.session)))

/-! ### The Ethernet ports -/

/-- Unsupported frames are counted; an echo is answered, at most 100 a second; a solicitation for one of the port's own
addresses is answered; a lease gives its address unless a static one stands. A port without a partner tries its two physical
layers in turn; a link that comes up gets the link-local address of its MAC address and asks for leases; one that goes down
starts over, and its queue pairs, and no others, go to the error state.
Where the manual leaves a point open, the model's choices are those of log entries 6 and 137. -/
def Obligations.EthernetPorts : Prop :=
  (∀ (s : State) (port : Nat), s.hears port = true →
     exec (.ethUnsupported port) s = .next (s.after (s.bump .host HC_ETH_UNSUPPORTED)) ∧
     (∀ v6 bs, let recent := (s.eth port).echoes.filter fun t => decide (s.aclk - t < SECOND)
       (recent.length < 100 → exec (.icmpEcho port v6 bs) s =
         .next (s.after ((s.setEth port { s.eth port with echoes := recent ++ [s.aclk] }).send (.echo port v6 bs)))) ∧
       (100 ≤ recent.length → exec (.icmpEcho port v6 bs) s = .next (s.after (s.setEth port { s.eth port with echoes := recent })))) ∧
     (∀ a, (a ≠ 0 ∧ (a = (s.eth port).v6 ∨ a = (s.eth port).linkLocal) →
         exec (.neighbourDiscovery port a) s = .next (s.after (s.send (.neighbour port a)))) ∧
       (¬ (a ≠ 0 ∧ (a = (s.eth port).v6 ∨ a = (s.eth port).linkLocal)) → exec (.neighbourDiscovery port a) s = .next (s.after s))) ∧
     (∀ a, ((s.eth port).static6 = false → exec (.dhcpReply port true a) s =
         .next (s.after ((s.setEth port { s.eth port with v6 := a }).send (.lease port true a)))) ∧
       ((s.eth port).static4 = false → exec (.dhcpReply port false a) s =
         .next (s.after ((s.setEth port { s.eth port with v4 := a }).send (.lease port false a)))) ∧
       ((s.eth port).static6 = true → exec (.dhcpReply port true a) s = .next (s.after s)) ∧
       ((s.eth port).static4 = true → exec (.dhcpReply port false a) s = .next (s.after s)))) ∧
  (∀ (s : State) (port : Nat), s.on = true → port < 2 → s.dieRuns (4 + port) = true →
     ((s.eth port).up = false → exec (.ethTrainingTurn port) s = .next (s.after (s.setEth port { s.eth port with c2m := !(s.eth port).c2m }))) ∧
     ((s.eth port).up = true → exec (.ethTrainingTurn port) s = .next (s.after s)) ∧
     ((s.eth port).up = false → s.unitGood UK_ETH port = true → exec (.ethLinkUp port) s =
       .next (s.after (((s.setEth port { s.eth port with up := true, linkLocal := State.linkLocalOf (s.macOf port) }).send
         (.solicit port false (s.clientId false) s.hostName)).send (.solicit port true (s.clientId true) s.hostName)))) ∧
     (∃ t, exec (.ethPortDown port) s = .next (s.after t) ∧ t = { s with host := { s.host with eth := t.host.eth, qps := t.host.qps } } ∧
       t.eth port = { s.eth port with up := false, c2m := false } ∧ (∀ p, p ≠ port → t.eth p = s.eth p) ∧
       t.host.qps = s.host.qps.map fun q => if q.port = port then { q with error := true } else q))

/-! ### Plans and jobs -/

/-- PLAN_LOAD is refused while a plan is loaded. Otherwise its load record is taken whole or not at all: completed, the
plan is loaded with the identity, the seed, the steps and the piers of the record, and the falsework copies are due;
refused, no plan is loaded and the placement of HBM stands as before.
Where the manual leaves a point open, the model's choices are those of log entries 113 and 116. -/
def Obligations.PlanLoadTakesTheRecord : Prop :=
  ∀ (c : HostCmd) (s : State), s.Runs OC_PLAN_LOAD c →
    let x := c.seen OC_PLAN_LOAD s
    let b := s.begin OC_PLAN_LOAD c
    let u := b.told x b.planLoadFields
    let a := fld x.v 127 80
    let rec_ := s.nat a 64
    (s.plan.loaded = true → exec (.planLoad c) s = .next (s.answered (.planLoad c) OC_PLAN_LOAD c { s := b, status := ST_STATE })) ∧
    (s.plan.loaded = false → x.Fits b.planLoadFields → ∃ t st res,
      exec (.planLoad c) s = .next (s.answered (.planLoad c) OC_PLAN_LOAD c { s := t, status := st, comp := res }) ∧
      (st = ST_DONE ∨ st = ST_STATE ∨ st = ST_RESOURCE ∨ st = ST_DEADLINE) ∧
      (st = ST_DONE → t.plan.loaded = true ∧ t.plan.planId = fld rec_ 511 480 ∧ t.plan.seed = fld rec_ 479 416 ∧ t.plan.steps = fld rec_ 123 60 ∧
        t.plan.members = s.pierMap (fld rec_ 299 252) ∧ s.pierId ∈ t.plan.piers ∧ t.falsework.due = true ∧ t.falsework.resumeAt = none) ∧
      (st ≠ ST_DONE → t.plan = { s.plan with syncs := t.plan.syncs } ∧ t.localGib = s.localGib ∧ t.falsework = s.falsework) ∧
      Only [.mem, .place, .plan, .falsework, .gate, .ctr, .host, .trace, .clamps] u t)

/-- PLAN_UPDATE waits for the boundary of a running job; outside one it is applied whole or leaves memory, plan and placement
as they were. PLAN_UNLOAD leaves no plan, and is refused while a job runs. JOB_ASSIGN asks the pier it names, where that is
attached and a plan is loaded, and is refused otherwise.
Where the manual leaves a point open, the model's choices are those of log entries 118 and 120. -/
def Obligations.PlansAreUpdatedAndAssigned : Prop :=
  ((∀ (c : HostCmd) (s : State), s.Runs OC_PLAN_UPDATE c →
     let x := c.seen OC_PLAN_UPDATE s
     let b := s.begin OC_PLAN_UPDATE c
     let u := b.told x (b.listFields x)
     (s.plan.loaded = false → exec (.planUpdate c) s = .next (s.answered (.planUpdate c) OC_PLAN_UPDATE c { s := b, status := ST_STATE })) ∧
     (s.plan.loaded = true → x.Fits (b.listFields x) →
       (s.job.running = true → exec (.planUpdate c) s = .next (s.answered (.planUpdate c) OC_PLAN_UPDATE c {
         s := { u with gate := { u.gate with update := u.gate.update ++ [(c.cmdId, fld x.v 127 80, fld x.v 79 60)] } }, status := ST_PENDING })) ∧
       (s.job.running = false → ∃ t st res,
         exec (.planUpdate c) s = .next (s.answered (.planUpdate c) OC_PLAN_UPDATE c { s := t, status := st, comp := res }) ∧
         (st ≠ ST_DONE → t.mem = s.mem ∧ t.ecc = s.ecc ∧ t.plan = s.plan ∧ t.localGib = s.localGib) ∧
         (st = ST_DONE → t.plan.loaded = true ∧ t.plan.planId = s.plan.planId ∧ t.plan.members = s.plan.members)))) ∧
   (∀ (c : HostCmd) (s : State), s.Runs OC_PLAN_UNLOAD c →
     let b := s.begin OC_PLAN_UNLOAD c
     exec (.planUnload c) s = .next (s.answered (.planUnload c) OC_PLAN_UNLOAD c (
       if s.job.running = true ∨ s.job.starting = true ∨ s.plan.loaded = false then { s := b, status := ST_STATE }
       else { s := { b with plan := { syncs := b.plan.syncs }, falsework := { b.falsework with resumeAt := none } }, status := ST_DONE })))) ∧
  (∀ (c : HostCmd) (s : State), s.Runs OC_JOB_ASSIGN c →
     let x := c.seen OC_JOB_ASSIGN s
     let u := (s.begin OC_JOB_ASSIGN c).told x State.jobAssignFields
     let p := fld x.v 127 116
     let asked : State := { u with gate := { u.gate with assignAsk := u.gate.assignAsk ++ [(c.cmdId, p)] } }
     x.Fits State.jobAssignFields →
     exec (.jobAssign c) s = .next (s.answered (.jobAssign c) OC_JOB_ASSIGN c (
       if s.plan.loaded = false ∨ (p ≠ s.pierId ∧ ∀ m ∈ s.net.maps, m.pier ≠ p) then { s := u, status := ST_STATE }
       else if p = s.pierId then { s := u, status := if s.host.session.isSome ∧ s.fuses.owner.isSome then ST_DONE else ST_STATE }
       else { s := asked.sendCtrl p (.assignQuery s.pierId s.plan.planId s.plan.seed (s.fuses.owner.getD 0)), status := ST_PENDING })))

/-- DESC_WRITE copies its sections in order, and changes no byte of memory outside the plan descriptor area. SLOT_WRITE
accepts a descriptor for its slot and replaces one not yet in force: it takes effect at once outside a job, and at the next
boundary of a running one; a slot that opens without room for its entries is refused.
Where the manual leaves a point open, the model's choices are those of log entries 118 and 125. -/
def Obligations.DescriptorsAndSlotsAreWritten : Prop :=
  (∀ (c : HostCmd) (s : State), s.Runs OC_DESC_WRITE c →
     let x := c.seen OC_DESC_WRITE s
     let b := s.begin OC_DESC_WRITE c
     let u := b.told x (b.listFields x)
     x.Fits (b.listFields x) → ∃ t,
       exec (.descWrite c) s = .next (s.answered (.descWrite c) OC_DESC_WRITE c { s := t, status := ST_DONE }) ∧
       t = (u.readSections (fld x.v 127 80) (fld x.v 79 60)).foldl (State.descSection c.cmdId) u ∧
       (∀ a, a < PLAN_AREA ∨ PLAN_AREA_END ≤ a → t.byte a = s.byte a) ∧ Only [.mem, .gate, .ctr, .host, .trace, .clamps] u t) ∧
  (∀ (c : HostCmd) (s : State), s.Runs OC_SLOT_WRITE c →
     let x := c.seen OC_SLOT_WRITE s
     let b := s.begin OC_SLOT_WRITE c
     let fs := b.slotFields x.v
     let u := b.told x fs
     let n := fld x.v 527 512
     let d := State.applyClamps x.v fs % 2 ^ 512
     let q := SeqSlot.ofNat d
     let old := b.seqSlot n
     let fresh := q.total ≠ 0 ∧ (old.total = 0 ∨ old.layers ≠ q.layers ∨ old.kvh ≠ q.kvh ∨ old.nblk ≠ q.nblk)
     let w (run : Option Nat) : SlotWrite := { slot := n, desc := d, run := run.map fun a => (a, q.entries), due := !s.job.running }
     let queued (run : Option Nat) : State := { u with host := { u.host with slotWrites := (u.host.slotWrites.filter fun y => y.slot != n) ++ [w run] } }
     x.Fits fs →
     (fresh → (1048576 < q.entries ∨ u.freeRun q.entries = none) →
       exec (.slotWrite c) s = .next (s.answered (.slotWrite c) OC_SLOT_WRITE c { s := u, status := ST_RESOURCE })) ∧
     (∀ r, fresh → q.entries ≤ 1048576 → u.freeRun q.entries = some r →
       exec (.slotWrite c) s = .next (s.answered (.slotWrite c) OC_SLOT_WRITE c { s := (queued (some r)).settleSlots, status := ST_DONE })) ∧
     (¬ fresh → exec (.slotWrite c) s = .next (s.answered (.slotWrite c) OC_SLOT_WRITE c { s := (queued none).settleSlots, status := ST_DONE })) ∧
     (s.job.running = true → u.host.slotWrites.all (fun y => !y.due) = true → ∀ run, (queued run).settleSlots = queued run))

/-- JOB_START is refused without a plan or with a job; otherwise it is pending until the job ends. On a job of this pier
alone the first step begins at once, at the step the camber control block or a restored generation gives, and on a job of
more piers the exchange waits for their records; one that has not come in time ends it.
Where the manual leaves a point open, the model's choices are those of log entry 119. -/
def Obligations.JobStartExchangesThenBegins : Prop :=
  (∀ (c : HostCmd) (s : State), s.Runs OC_JOB_START c →
    let b := s.begin OC_JOB_START c
    (s.plan.loaded = false ∨ s.job.running = true ∨ s.job.starting = true →
      exec (.jobStart c) s = .next (s.answered (.jobStart c) OC_JOB_START c { s := b, status := ST_STATE })) ∧
    (s.plan.loaded = true → s.job.running = false → s.job.starting = false → ∃ t,
      exec (.jobStart c) s = .next (s.answered (.jobStart c) OC_JOB_START c { s := t, status := ST_PENDING }) ∧
      (s.plan.piers = [s.pierId] → s.plan.members = [s.pierId] → s.job.records = [] →
        t.job.running = true ∧ t.job.starting = false ∧ t.job.cmdId = some c.cmdId ∧ t.job.decided = t.job.startStep ∧
        t.job.startStep = s.falsework.resumeAt.getD (fld s.camberCtl 511 448) ∧ t.falsework.due = true ∧
        t.streams.map (·.1) = s.activeStreams ∧ t.mem = s.mem) ∧
      (∀ p ∈ s.plan.piers, p ≠ s.pierId → (s.job.records.any fun r => r.1 == p) = false →
        t.job.running = false ∧ t.job.starting = true ∧ t.job.cmdId = some c.cmdId ∧ aget? t.job.records s.pierId = some s.ownRecord ∧
        t.streams = s.streams ∧ t.mem = s.mem ∧ t.plan = s.plan))) ∧
  (∀ s : State, s.on = true → s.job.starting = true → (s.plan.piers.any fun p => !s.job.records.any (·.1 == p)) = true → ∃ t,
    exec .jobStartTimeout s = .next (s.after t) ∧ t.job.starting = false ∧ t.job.records = [] ∧ t.job.cmdId = none ∧ t.job.running = s.job.running ∧
    t.plan = s.plan ∧ t.streams = s.streams)

/-! ### Spans, slots, units -/

/-- SPAN_CREATE of an index in use is refused; members that name nothing are dropped; with none left nothing is created. A
span is installed only where no leaf belongs to it twice and its depth is at most 8; then its descriptor stands in the table and
its members are kept, and the command is complete where no other pier has to follow. SPAN_DELETE of a span that a loaded
descriptor names is refused; another is deleted on every pier of the job.
Where the manual leaves a point open, the model's choices are those of log entries 122 and 123. -/
def Obligations.SpansComeAndGo : Prop :=
  ((∀ (c : HostCmd) (s : State), s.Runs OC_SPAN_CREATE c →
     let x := c.seen OC_SPAN_CREATE s
     let fs := (s.begin OC_SPAN_CREATE c).spanFields x.v
     let u := (s.begin OC_SPAN_CREATE c).told x fs
     let v := State.applyClamps (x.v % 2 ^ 512) fs
     let ms := u.listed (SpanDesc.ofNat v)
     let kept := (ms.filter fun m => (u.memberBad (fld v 511 500) m.2).isNone).map (·.2)
     let w := u.reports (ms.flatMap (u.memberClamps (fld v 511 500))) c.cmdId
     x.Fits fs →
     exec (.spanCreate c) s = .next (s.answered (.spanCreate c) OC_SPAN_CREATE c (
       if u.spanValid (fld v 511 500) then { s := u, status := ST_STATE }
       else if kept = [] then { s := w, status := ST_CLAMPED }
       else w.createSpan c.cmdId v (if (SpanDesc.ofNat v).placement = .block then (SpanDesc.ofNat v).count else kept.length) kept))) ∧
   (∀ (c : HostCmd) (s : State), s.Runs OC_SPAN_DELETE c →
     let x := c.seen OC_SPAN_DELETE s
     let u := (s.begin OC_SPAN_DELETE c).told x (s.begin OC_SPAN_DELETE c).spanDeleteFields
     x.Fits (s.begin OC_SPAN_DELETE c).spanDeleteFields →
     exec (.spanDelete c) s = .next (s.answered (.spanDelete c) OC_SPAN_DELETE c (
       if u.spanNamed (fld x.v 127 116) then { s := u, status := ST_STATE } else u.spreadSpan c.cmdId (fld x.v 127 116) 0 [])))) ∧
  (∀ (s : State) (cmd v count : Nat) (kept : List Handle),
     let i := fld v 511 500
     let a := s.createSpan cmd v count kept
     (a.status = ST_DONE ∨ a.status = ST_PENDING →
       s.depthOf kept ≤ 8 ∧ a.s.mapped (SPAN_TABLE + 64 * i) = true ∧ aget? a.s.net.spanLists i = some (kept.map State.Handle.word) ∧
       (a.status = ST_DONE ↔ s.ownedPiers.filter (fun p => p != s.pierId) = []) ∧
       (∀ b, b < SPAN_TABLE + 64 * i ∨ SPAN_TABLE + 64 * i + 64 ≤ b → a.s.byte b = s.byte b)) ∧
     (a.status ≠ ST_DONE → a.status ≠ ST_PENDING → (a.status = ST_STATE ∨ a.status = ST_RESOURCE) ∧ a.s.mem = s.mem ∧ a.s.ecc = s.ecc ∧ a.s.net = s.net))

/-! ### Abort, roll call, detachment -/

/-- ABORT of a completed command is ABORT_LATE and changes nothing; a host wait ends; a running job stops at its next
boundary, the abort pending with it; every other pending command takes its own stop point.
Where the manual leaves a point open, the model's choices are those of log entry 95. -/
def Obligations.AbortStopsAtStopPoints : Prop :=
  ∀ (c : HostCmd) (s : State) (r : LogRec), s.Runs OC_ABORT c →
    let x := c.seen OC_ABORT s
    let b := s.begin OC_ABORT c
    let u := b.told x (abortFields x b)
    let n := fld x.v 127 96
    x.Fits (abortFields x b) → b.logOf n = some r → n ≠ c.cmdId ∧
    (r.status.isSome = true → exec (.abort c) s = .next (s.answered (.abort c) OC_ABORT c { s := u, status := ST_ABORT_LATE })) ∧
    (r.status = none → exec (.abort c) s = .next (s.answered (.abort c) OC_ABORT c (u.abortPending c.cmdId n)) ∧
      (∀ w, (s.host.waiting.any fun y => y.2.cmdId == n) = false → s.host.ops.find? (fun y => State.opKey y s.pierId n) = none →
        s.host.waits.find? (fun y => y.cmdId == n) = some w →
        (u.abortPending c.cmdId n).status = ST_DONE ∧ (u.abortPending c.cmdId n).s.host.waits = s.host.waits.filter fun y => y.cmdId != n) ∧
      ((s.host.waiting.any fun y => y.2.cmdId == n) = false → s.host.ops.find? (fun y => State.opKey y s.pierId n) = none →
        s.host.waits.find? (fun y => y.cmdId == n) = none → s.job.cmdId = some n → s.job.starting = false →
        (u.abortPending c.cmdId n).status = ST_PENDING ∧ (u.abortPending c.cmdId n).s.gate.abort = true ∧
        (u.abortPending c.cmdId n).s.host.aborts = s.host.aborts ++ [(c.cmdId, n)]))

/-- ROLL_CALL makes this pier the root, at (0, 0, 0), from where the roll call goes on, and is refused with a plan loaded or
a roll call running. DRAIN_DETACH of a pier that the job needs, or with one under way, is refused; otherwise the tables
without it are sent out for an epoch change.
Where the manual leaves a point open, the model's choices are those of log entries 83 to 86. -/
def Obligations.RollCallAndDetachment : Prop :=
  (∀ (c : HostCmd) (s : State), s.Runs OC_ROLL_CALL c →
     let x := c.seen OC_ROLL_CALL s
     let u := (s.begin OC_ROLL_CALL c).told x State.rollFields
     x.Fits State.rollFields →
     (s.plan.loaded = true ∨ s.net.roll.running = true →
       exec (.rollCall c) s = .next (s.answered (.rollCall c) OC_ROLL_CALL c { s := u, status := ST_STATE })) ∧
     (s.plan.loaded = false → s.net.roll.running = false → ∃ t : State,
       exec (.rollCall c) s = .next (s.answered (.rollCall c) OC_ROLL_CALL c { s := t.closeRoll, status := ST_PENDING }) ∧
       t.net.x = 0 ∧ t.net.y = 0 ∧ t.net.z = 0 ∧ t.net.spare = false ∧ t.net.roll.isRoot = true ∧ t.net.roll.root = s.fuses.serial ∧
       t.net.roll.running = true ∧ t.net.roll.cmdId = c.cmdId ∧ t.net.newMaps = [] ∧ (fld x.v 127 126 = 1 → t.net.chain = true ∧ t.net.ey = 1 ∧ t.net.ez = 1) ∧
       (fld x.v 127 126 = 0 → t.net.chain = false ∧ t.net.ex = min 7 (fld x.v 125 122) + 1 ∧ t.net.ey = fld x.v 121 118 + 1 ∧ t.net.ez = fld x.v 117 114 + 1))) ∧
  (∀ (c : HostCmd) (s : State), s.Runs OC_DRAIN_DETACH c →
     let x := c.seen OC_DRAIN_DETACH s
     let u := (s.begin OC_DRAIN_DETACH c).told x (s.begin OC_DRAIN_DETACH c).detachFields
     let p := fld x.v 127 116
     let v : State := { u with net := { u.net with detach := some (p, c.cmdId) } }
     x.Fits (s.begin OC_DRAIN_DETACH c).detachFields →
     exec (.drainDetach c) s = .next (s.answered (.drainDetach c) OC_DRAIN_DETACH c (
       if (s.plan.loaded = true ∧ p ∈ s.barrierPiers) ∨ s.net.detach.isSome then { s := u, status := ST_STATE }
       else { s := v.floodMaps none s.net.roll.root (b2n s.net.chain) s.net.ex s.net.ey s.net.ez (s.nextMaps.filter fun m => m.pier ≠ p), status := ST_PENDING })))

/-! ### Snapshot, trace, debug mode -/

/-- The snapshot is taken where none is held, read and released; a slot's trace records are read oldest first.
Where the manual leaves a point open, the model's choices are those of log entries 156 and 159. -/
def Obligations.SnapshotIsTakenReadAndReleased : Prop :=
  (∀ (c : HostCmd) (s : State), s.Runs OC_SNAPSHOT c → rowField 127 126 0 3 c s = true →
    let x := c.seen OC_SNAPSHOT s
    let u := (s.begin OC_SNAPSHOT c).told x (State.zeroFrom 125)
    x.Fits (State.zeroFrom 125) →
    exec (.snapshotTake c) s = .next (s.answered (.snapshotTake c) OC_SNAPSHOT c (
      if s.trace.snapHeld then { s := u, status := ST_STATE } else { s := u.snapshot none false, status := ST_DONE }))) ∧
  (∀ (c : HostCmd) (s : State), s.Runs OC_SNAPSHOT c → rowField 127 126 1 3 c s = true →
    let x := c.seen OC_SNAPSHOT s
    let fs := (s.begin OC_SNAPSHOT c).partFields x.v State.SNAP_SIZE 13
    x.Fits fs →
    exec (.snapshotRead c) s = .next (s.answered (.snapshotRead c) OC_SNAPSHOT c {
      s := ((s.begin OC_SNAPSHOT c).told x fs).hostPut (fld x.v 125 78) (s.data (State.SNAP_BASE + fld x.v 77 46) (min (fld x.v 45 14) (State.SNAP_SIZE - fld x.v 77 46)))
      status := ST_DONE })) ∧
  (∀ (c : HostCmd) (s : State), s.Runs OC_SNAPSHOT c → rowField 127 126 2 3 c s = true →
    let x := c.seen OC_SNAPSHOT s
    let u := (s.begin OC_SNAPSHOT c).told x (State.zeroFrom 125)
    x.Fits (State.zeroFrom 125) →
    exec (.snapshotRelease c) s = .next (s.answered (.snapshotRelease c) OC_SNAPSHOT c {
      s := { u with trace := { u.trace with snapHeld := false } }, status := ST_DONE })) ∧
  (∀ (c : HostCmd) (s : State), s.Runs OC_SNAPSHOT c → rowField 127 126 3 3 c s = true →
    let x := c.seen OC_SNAPSHOT s
    let all := (s.traceBuf (fld x.v 13 8)).recs.flatMap (natLE 32)
    let fs := (s.begin OC_SNAPSHOT c).partFields x.v (32 * (s.traceBuf (fld x.v 13 8)).recs.length) 7
    x.Fits fs →
    exec (.snapshotTraceRead c) s = .next (s.answered (.snapshotTraceRead c) OC_SNAPSHOT c {
      s := ((s.begin OC_SNAPSHOT c).told x fs).hostPut (fld x.v 125 78)
        ((all.drop (fld x.v 77 46)).take (min (fld x.v 45 14) (32 * (s.traceBuf (fld x.v 13 8)).recs.length - fld x.v 77 46)))
      status := ST_DONE }))

/-- TRACE_CTL: sampling starts from sequence 0 or stops; TRACE arms and empties all 64 buffers; TRIGGER fires the host's
trigger where its bit is enabled; STOP disarms and keeps; STATUS writes each slot's record. Samples are taken while sampling runs,
and the sample counters start again; a window buffer freezes once its last records are stored.
Where the manual leaves a point open, the model's choices are those of log entries 156 to 158. -/
def Obligations.SamplingAndTracing : Prop :=
  ((∀ (c : HostCmd) (s : State), s.Runs OC_TRACE_CTL c → rowField 255 253 0 4 c s = true →
     let x := c.seen OC_TRACE_CTL s
     let u := (s.begin OC_TRACE_CTL c).told x ((s.begin OC_TRACE_CTL c).sampleFields x.v)
     x.Fits ((s.begin OC_TRACE_CTL c).sampleFields x.v) → ∃ t,
       exec (.traceCtlSample c) s = .next (s.answered (.traceCtlSample c) OC_TRACE_CTL c { s := t, status := ST_DONE }) ∧
       t.trace.sampling = bitOf x.v 247 ∧ Only [.trace, .clamps, .host] u t ∧
       (bitOf x.v 247 = true → t.trace.sampleSeq = 0 ∧ t.trace.counts = [] ∧ t.trace.ringAddr = fld x.v 245 198 ∧ 10 ≤ t.trace.interval ∧ t.trace.interval ≤ 24 ∧
         t.trace.selectors.length = 288 ∧ t.trace.bufs = s.trace.bufs)) ∧
   (∀ (c : HostCmd) (s : State), s.Runs OC_TRACE_CTL c → rowField 255 253 1 4 c s = true →
     let x := c.seen OC_TRACE_CTL s
     let u := (s.begin OC_TRACE_CTL c).told x ((s.begin OC_TRACE_CTL c).traceFields x.v)
     x.Fits ((s.begin OC_TRACE_CTL c).traceFields x.v) → ∃ t,
       exec (.traceCtlTrace c) s = .next (s.answered (.traceCtlTrace c) OC_TRACE_CTL c { s := t, status := ST_DONE }) ∧
       Only [.trace] u t ∧ (∀ k < 64, t.traceBuf k = { state := .armed }) ∧ t.trace.trigMask = fld x.v 246 241 ∧ t.trace.mode ≤ 2 ∧
       (t.trace.level = true → s.inDebug = true) ∧ t.trace.spillMib % 64 = 0 ∧ t.trace.spillMib ≤ 4096) ∧
   (∀ (c : HostCmd) (s : State), s.Runs OC_TRACE_CTL c → rowField 255 253 2 4 c s = true →
     let x := c.seen OC_TRACE_CTL s
     let u := (s.begin OC_TRACE_CTL c).told x State.opFields
     x.Fits State.opFields →
     exec (.traceCtlTrigger c) s = .next (s.answered (.traceCtlTrigger c) OC_TRACE_CTL c { s := u.trigger TG_HOST, status := ST_DONE }) ∧
     (bitOf s.trace.trigMask TG_HOST = false → u.trigger TG_HOST = u)) ∧
   (∀ (c : HostCmd) (s : State), s.Runs OC_TRACE_CTL c → rowField 255 253 3 4 c s = true →
     let x := c.seen OC_TRACE_CTL s
     let u := (s.begin OC_TRACE_CTL c).told x State.opFields
     x.Fits State.opFields → ∃ t,
       exec (.traceCtlStop c) s = .next (s.answered (.traceCtlStop c) OC_TRACE_CTL c { s := t, status := ST_DONE }) ∧
       t = { u with trace := { u.trace with bufs := t.trace.bufs } } ∧ ∀ k, t.traceBuf k = { s.traceBuf k with state := .disarmed }) ∧
   (∀ (c : HostCmd) (s : State), s.Runs OC_TRACE_CTL c → rowField 255 253 4 4 c s = true →
     let x := c.seen OC_TRACE_CTL s
     let fs := (s.begin OC_TRACE_CTL c).traceStatusFields
     x.Fits fs →
     exec (.traceCtlStatus c) s = .next (s.answered (.traceCtlStatus c) OC_TRACE_CTL c {
       s := ((s.begin OC_TRACE_CTL c).told x fs).hostPut (fld x.v 252 205) ((List.range 64).flatMap s.traceStatus), status := ST_DONE }))) ∧
  (∀ (s : State) (slot : Nat), s.computing = true →
     (s.trace.sampling = false → exec .sampleTick s = .next (s.after s)) ∧
     (s.trace.sampling = true → ∃ u, exec .sampleTick s = .next (s.after u) ∧ Only [.mem, .ctr, .trace] s u ∧
       u.trace = { s.trace with counts := [], sampleSeq := s.trace.sampleSeq + 1, countsLost := false }) ∧
     ((s.traceBuf slot).state = .post 0 → exec (.traceFrozen slot) s = .next (s.after (s.setTraceBuf slot { s.traceBuf slot with state := .frozen }))) ∧
     ((s.traceBuf slot).state ≠ .post 0 → exec (.traceFrozen slot) s = .next (s.after s)))

/-- DEBUG_MODE sets the mode, and is refused while a plan is loaded. RETIRE_UNIT retires its unit at the next boundary of a
running job, and at once outside one. -/
def Obligations.MaintenanceOutsideAPlan : Prop :=
  (∀ (c : HostCmd) (s : State), s.Runs OC_DEBUG_MODE c →
     let x := c.seen OC_DEBUG_MODE s
     let u := (s.begin OC_DEBUG_MODE c).told x (State.zeroFrom 126)
     x.Fits (State.zeroFrom 126) →
     exec (.debugMode c) s = .next (s.answered (.debugMode c) OC_DEBUG_MODE c (
       if s.plan.loaded then { s := u, status := ST_STATE } else { s := { u with debugMode := bitOf x.v 127 }, status := ST_DONE }))) ∧
  (∀ (c : HostCmd) (s : State), s.Runs OC_RETIRE_UNIT c →
     let x := c.seen OC_RETIRE_UNIT s
     let u := (s.begin OC_RETIRE_UNIT c).told x (State.retireFields x.v)
     let r : Retire := { kind := fld x.v 127 120, index := fld x.v 119 108, reason := UR_HOST }
     x.Fits (State.retireFields x.v) →
     (s.job.running = true → exec (.retireUnit c) s = .next (s.answered (.retireUnit c) OC_RETIRE_UNIT c {
       s := { u with gate := { u.gate with retire := u.gate.retire ++ [r] } }, status := ST_DONE })) ∧
     (s.job.running = false → ∃ t, exec (.retireUnit c) s = .next (s.answered (.retireUnit c) OC_RETIRE_UNIT c { s := t, status := ST_DONE }) ∧
       (r.kind ≠ UK_VLANE → t.unitGood r.kind r.index = false)))

/-! ### Operators -/

/-- An operator that passes its checks is taken up, PENDING, into the queue of at most 64, due at once or at the next
boundary, and told to the piers of its span; while a job runs, one that is not for a boundary is refused. A due operator of this
pier alone, of the kinds that compute, runs at once where no job runs: its work is done on the pier's memory, the sums it makes
are applied, it leaves the queue, and its command completes.
Where the manual leaves a point open, the model's choices are those of log entries 142 to 147. -/
def Obligations.OperatorsRun : Prop :=
  (∀ p ∈ operCommands, ∀ (c : HostCmd) (s : State), s.Runs OC_OPERATOR c → operRow p.2 c s = true →
     let x := c.seen OC_OPERATOR s
     let b := s.begin OC_OPERATOR c
     let v := x.v % 2 ^ 640
     let o := Oper.ofNat v
     let k := b.checkOper v
     let u := b.reports k.clamps c.cmdId
     let r : OpRun := { origin := s.pierId, cmdId := c.cmdId, record := v % 2 ^ 128, block := v / 2 ^ 128, crc := b.operCrc v, due := !o.boundary }
     k.clamps.any State.isNull = false → b.operOverlaps o = false →
     ((o.op = 0x90 ∨ o.op = 0x91) → b.fwEnabled = true) →
     ((o.boundary = false ∨ o.op = 0x91) → s.job.running = true →
       exec (p.1 c) s = .next (s.answered (p.1 c) OC_OPERATOR c { s := u, status := ST_STATE })) ∧
     ((o.boundary = false ∨ o.op = 0x91 → s.job.running = false) → (o.op = 0xA0 → s.falsework.reshard = none) →
       b.opLeafGone o.span = false → b.opUnserved o.span = false → s.host.ops.length < 64 →
       (o.deadline = 0 ∨ (b.operBound o (v % 2 ^ 128)).1 ≤ o.deadline) →
       exec (p.1 c) s = .next (s.answered (p.1 c) OC_OPERATOR c {
         s := ({ u with host := { u.host with ops := u.host.ops ++ [r] } } : State).tellOp r (.operator s.pierId c.cmdId r.record r.block r.crc)
         status := ST_PENDING }))) ∧
  (∀ (s : State) (x : OpRun), s.host.ops = [x] → x.due = true → x.phase = .queued → x.again = false → x.ready = [] → x.parts = [] →
     x.origin = s.pierId → s.opPiers x = [s.pierId] → s.opBlocked x = ST_DONE →
     s.job.running = false → s.sys.computeReset = false → s.falsework.reshardDone = [] → s.streams = [] →
     x.oper.op ∉ [0x70, 0x80, 0x90, 0x91, 0xA0] →
     let n := if x.oper.op = 0x30 then s.xentCount x.oper else 0
     let y : OpRun := { x with phase := .running, ready := [(s.pierId, ST_DONE, n)] }
     let w := ({ s with host := { s.host with ops := [y] } } : State).operRun x.oper n
     let z : OpRun := { y with phase := .parted, parts := [(s.pierId, w.2.1, w.2.2, w.1.sums)] }
     let v : State := { w.1.s with host := { w.1.s.host with ops := [z] } }
     s.settleOps.host.ops = [] ∧
     (∀ a, a < RING_AREA ∨ State.CQ_BASE + 2 ^ 38 ≤ a → s.settleOps.byte a = (v.opApply z (v.opCombine z)).byte a) ∧
     (∀ r ∈ s.settleOps.host.log, r.cmdId = x.cmdId → x.cmdId ≠ EVENT_ID → r.status.isSome = true) ∧
     s.settleOps.plan = s.plan ∧ s.settleOps.streams = [])

/-! ### Power, resets and bring-up -/

/-- Rails rise only with PWR_EN asserted and VIN within its range; losing either takes them down, and a junction at 115 °C
does too: then nothing is left but fuses, pins and sensors. A dip changes nothing. RESET_N low holds a powered pier with nothing
but fuses, pins, sensors and the DDR5 tier; its rise starts bring-up and reads the slot number.
Where the manual leaves a point open, the model's choices are those of log entries 7 and 164. -/
def Obligations.PowerAndFullReset : Prop :=
  (∀ s : State,
     exec .pwrEnRise s = .next { s with sys :=
       if s.sys.boot = .off ∧ s.sys.vinOk = true then { s.sys with pwrEn := true, boot := .held, pwrGood := true } else { s.sys with pwrEn := true } } ∧
     exec .vinWithinOperatingRange s = .next { s with sys :=
       if s.sys.boot = .off ∧ s.sys.pwrEn = true then { s.sys with vinOk := true, boot := .held, pwrGood := true } else { s.sys with vinOk := true } } ∧
     exec .pwrEnFall s = .next { sys := { s.sysAt .off with pwrEn := false, pwrGood := false, retained := false }, fuses := s.fuses, freeCtr := s.freeCtr, pending := s.pending } ∧
     exec .vinUndervoltage s = .next { sys := { s.sysAt .off with vinOk := false, pwrGood := false, retained := false }, fuses := s.fuses, freeCtr := s.freeCtr, pending := s.pending } ∧
     exec .thermalTrip s = .next (if s.sys.boot ≠ .off ∧ 11500 ≤ s.hottestDie then
       { sys := { s.sysAt .off with pwrGood := false, retained := false }, fuses := s.fuses, freeCtr := s.freeCtr, pending := s.pending } else s) ∧
     exec .vinDip s = .next s) ∧
  (∀ (s : State) (slot : Nat),
     exec .resetNFall s = .next (if s.sys.boot = .off then { s with sys := { s.sys with resetN := false } } else {
       sys := { s.sysAt .held with resetN := false, retained := s.ddrKept }, fuses := s.fuses, freeCtr := s.freeCtr, pending := s.pending
       mem := s.mem.filter fun c => isDdr c.1, ecc := s.ecc.filter fun c => isDdr c.1 }) ∧
     exec (.resetNRise slot) s = .next { s with sys :=
       if s.sys.boot = .held ∧ s.sys.pwrGood = true then { s.sys with resetN := true, boot := .testing, slotId := slot % 16 } else { s.sys with resetN := true } })

/-- The power limit withholds array issue while a mean of the samples is above its bound; heat withholds it on a die from
95 °C to 90 °C, and THERM_N is asserted from 105 °C or 62 °C at the outlet; nothing else changes but counters. A die whose root
PLL loses lock stops: its streams, clusters and ports are not heard, an abutment die's viaduct ports are down, and other dies go
on.
Where the manual leaves a point open, the model's choices are those of log entries 162 and 163. -/
def Obligations.PowerHeatAndClocks : Prop :=
  ((∀ (s : State) (w : Nat), ∃ t, exec (.powerSample w) s = .next t ∧ Only [.sys, .ctr, .trace] s t ∧
     t.sys = { s.sys with power := t.sys.power, powerHold := t.sys.powerHold } ∧ t.sys.power = (w :: s.sys.power).take 100000 ∧
     (t.sys.powerHold = true ↔ 4400 < State.meanOf (t.sys.power.take 1000) ∨ s.powerLimit < State.meanOf t.sys.power) ∧
     (t.sys.powerHold = false → t = { s with sys := t.sys })) ∧
   (∀ (s : State) (die centi outlet : Nat), ∃ t, exec (.junctionSample die centi outlet) s = .next t ∧ Only [.sys, .ctr, .trace] s t ∧
     t.sys = { s.sys with temps := aset s.sys.temps die centi, outlet := outlet, heatHold := t.sys.heatHold, thermN := t.sys.thermN } ∧
     (9500 ≤ centi → die ∈ t.sys.heatHold) ∧ (centi ≤ 9000 → die ∉ t.sys.heatHold) ∧
     (9000 < centi → centi < 9500 → (die ∈ t.sys.heatHold ↔ die ∈ s.sys.heatHold)) ∧ (∀ d, d ≠ die → (d ∈ t.sys.heatHold ↔ d ∈ s.sys.heatHold)) ∧
     (10500 ≤ t.hottestDie ∨ 6200 ≤ outlet → t.sys.thermN = false) ∧ (t.hottestDie ≤ 10000 → outlet ≤ 5700 → t.sys.thermN = true) ∧
     (t.hottestDie < 10500 → outlet < 6200 → 10000 < t.hottestDie ∨ 5700 < outlet → t.sys.thermN = s.sys.thermN))) ∧
  (∀ (s : State) (die : Nat), s.on = true → die < 6 → ∃ u,
     exec (.rootPllLossOfLock die) s = .next (s.booted u { s.sys with pllLost := die :: s.sys.pllLost.filter (· != die) }) ∧
     Only [.sys, .net] s u ∧ u.dieRuns die = false ∧ (∀ d, d ≠ die → u.dieRuns d = s.dieRuns d) ∧
     (die < 4 → u.net = s.net) ∧
     (4 ≤ die → ∀ p, u.port p = if p / 8 + 4 = die then { s.port p with state := .down } else s.port p))

/-- Bring-up: the start-up test leaves a unit good where neither a fuse nor the test marks it, and goes on with SEC only;
training takes the largest set of channels that can be used, or leaves FW_LOAD failed and bring-up where it is with a
stack that fails; the memory test leaves memory at +0, but a tier that is kept, and the pier ready. At another stage each
changes nothing but what follows.
Where the manual leaves a point open, the model's choices are those of log entries 165, 166 and 169. -/
def Obligations.BringUpStages : Prop :=
  (∀ (s : State) (failed : List (Nat × Nat)), s.sys.boot = .testing → ∃ u,
    exec (.startUpTestDone failed) s = .next (s.booted u { s.sys with boot := if u.unitGood UK_ABUT 0 then .linked else .dead }) ∧
    Only [.sys, .fp, .net, .fw] s u ∧
    (∀ k i, i < unitCount k → u.unitGood k i = (s.unitGood k i && !s.fuses.bad.contains (k, i) &&
      !failed.any fun f => f.1 % 16 == k && f.2 == i && State.testedKind k))) ∧
  (∀ (s : State) (failed : List Nat) (dimms : Nat), s.sys.boot = .training → ∃ u,
    exec (.memoryTrainingDone failed dimms) s = .next (s.booted u (if u.stacksGood then { s.sys with boot := .memTest, dimms := State.dimmMask dimms } else s.sys)) ∧
    (∀ i < 12, u.unitGood UK_HBM i = (s.unitGood UK_HBM i && !failed.contains i)) ∧
    (u.stacksGood = true → u.ddrSet = State.dimmSet dimms (u.unitGood UK_DDR) ∧
      (∀ c ∈ u.ddrSet, u.ddrBytes ≤ u.ddrSet.length * State.dimmOf dimms c * GiB)) ∧
    (u.stacksGood = false → u.ddrSet = s.ddrSet ∧ u.ddrBytes = s.ddrBytes) ∧ (s.host.ring = none → u.mem = s.mem)) ∧
  (∀ s : State, s.sys.boot = .memTest → s.gate.rows = [] → s.sys.earlyComputeReset = false →
    let keep (k : Nat) : Bool := isDdr k && (s.sys.keepDdr && s.sys.retained)
    exec (.memoryTestDone []) s = .next (s.booted { s with mem := s.mem.filter (fun c => keep c.1), ecc := s.ecc.filter (fun c => keep c.1), sys := { s.sys with boot := .ready } }
      { s.sys with boot := .ready }))

/-- A compute reset loses core and cluster memory, arrays, kernels and layer results and keeps the rest of memory, fuses,
firmware and the plan; before the pier is ready it only raises the report's generation. The rise ends it, restores the
job's sync objects, and takes the pier's own notice back; a pier that has not come back in time is no longer under
notice.
Where the manual leaves a point open, the model's choices are those of log entry 167. -/
def Obligations.ComputeResetKeepsHbm : Prop :=
  (∀ s : State, s.sys.boot = .ready → ∃ u,
    exec .computeResetNFall s = .next (s.booted u { s.sys with computeResetN := false, computeReset := true }) ∧
    (∀ c ∈ u.mem, c.1 < CLUSTER_BASE ∨ DESC_BASE ≤ c.1) ∧ (∀ c ∈ u.ecc, c.1 < CLUSTER_BASE ∨ DESC_BASE ≤ c.1) ∧
    u.arrays = [] ∧ u.kernels = [] ∧ u.layers = [] ∧ u.plan = s.plan ∧ u.fw = s.fw ∧ u.fuses = s.fuses ∧ u.falsework = s.falsework ∧
    (s.sys.computeReset = false → s.pierId ∈ u.job.notices) ∧
    (s.job.running = false → u.mem = s.mem.filter (fun c => !(CLUSTER_BASE ≤ c.1 && c.1 < DESC_BASE)))) ∧
  (∀ s : State, s.on = true → s.sys.boot ≠ .ready →
    exec .computeResetNFall s = .next (s.booted { s with
      sys := { s.sys with computeResetN := false, earlyComputeReset := true }, fp := { s.fp with gen := (s.fp.gen + 1) % 65536 } }
      { s.sys with computeResetN := false, earlyComputeReset := true })) ∧
  (∀ s : State, s.on = false → exec .computeResetNFall s = .next { s with sys := { s.sys with computeResetN := false } } ∧
    ∀ failed, exec (.computeResetNRise failed) s = .next { s with sys := { s.sys with computeResetN := true } }) ∧
  (∀ s : State, s.sys.boot = .ready → s.sys.computeReset = true → s.host.ring = none → s.falsework.reshard = none → (∀ r, (s.stream r).phase ≠ .gate) →
    (∀ id ∈ s.plan.syncs, id < 65536) → ∃ u,
    exec (.computeResetNRise []) s = .next (s.booted u { s.sys with computeResetN := true, computeReset := false }) ∧ s.pierId ∉ u.job.notices ∧
    (∀ id ∈ s.plan.syncs, u.syncCount id = hold32 (s.syncInit id +
      (if s.syncMode id = 2 ∧ id / 0x8000 = s.job.decided % 2 then aget s.plan.updateSums id 0 else 0)))) ∧
  (∀ (s : State) (p : Nat), s.on = true → ∃ u, exec (.rejoinTimeout p) s = .next (s.after u) ∧ p ∉ u.job.notices ∧ (p ∉ s.job.notices → u = s))

/-! ### Viaduct ports -/

/-- A lane that fails is dropped, and the port runs at the width left, or goes down for good with fewer than two; the
symbol rate and the eyes of a lane drop it past their limits only. A port trains with IDENT: it is UP at the width both ends
have, MISWIRED beside a wrong port, and DOWN again after three attempts.
Where the manual leaves a point open, the model's choices are those of log entries 81 and 82. -/
def Obligations.LanesAndTraining : Prop :=
  (∀ (s : State) (p lane : Nat), s.portRuns p = true →
    (bitOf (s.port p).lanes (lane % 4) = false → exec (.laneLockLoss p lane) s = .next (s.after s)) ∧
    (bitOf (s.port p).lanes (lane % 4) = true → ∃ u, exec (.laneLockLoss p lane) s = .next (s.after u) ∧
      (u.port p).lanes = (s.port p).lanes - 2 ^ (lane % 4) ∧ (∀ q, q ≠ p → (u.port q).lanes = (s.port q).lanes) ∧
      (2 ≤ popcount 4 (u.port p).lanes → (u.port p).state = (s.port p).state ∧
        (s.portUp p = true → (u.port p).width = popcount 4 (u.port p).lanes)) ∧
      (popcount 4 (u.port p).lanes < 2 → (u.port p).state = .down ∧ (u.port p).retired = true ∧ u.unitGood UK_VPORT p = false)) ∧
    (∀ e n, n < e * 1000000 → exec (.symbolRateCheck p lane e n) s = exec (.laneLockLoss p lane) s) ∧
    (∀ e n, e * 1000000 ≤ n → exec (.symbolRateCheck p lane e n) s = .next (s.after s))) ∧
  (∀ (s : State) (ms : List (Nat × Nat × Nat)), s.on = true → ∃ u, exec (.eyeMarginCheck ms) s = .next (s.after u) ∧
    (∀ m ∈ ms, m.1 < 64 → s.portRuns (m.1 / 4) = true → m.2.2 < 120 → bitOf (u.port (m.1 / 4)).lanes (m.1 % 4) = false) ∧
    ((∀ m ∈ ms, 120 ≤ m.2.2) → Only [.age] s u) ∧
    (∀ m ∈ ms, m.1 < 64 → s.portRuns (m.1 / 4) = true → bitOf (s.port (m.1 / 4)).lanes (m.1 % 4) = true → aget u.age.eye m.1 0 ≤ m.2.2)) ∧
  (∀ (s : State) (p : Nat), s.portRuns p = true →
    let q := s.port p
    let shut := q.retired = true ∨ q.state = .disabled ∨ q.state = .up ∨ q.state = .miswired ∨ popcount 4 q.lanes < 2 ∨ s.unitGood UK_VPORT p = false ∨
      (roleOf s.ext p = 7 ∧ s.pierId ≠ 0xFFF)
    let ident : Flit := { hdr := FT_IDENT * 2 ^ 129, body := .ident (s.ownIdent p) }
    let sent := s.setPort p { q with state := .training, attempts := q.attempts + 1 }
    (q.state = .training → 3 ≤ q.attempts → exec (.portTrainingRetry p) s = .next (s.after (s.setPort p { q with state := .down, attempts := 0 }))) ∧
    (q.state ≠ .training ∨ q.attempts < 3 →
      (shut → exec (.portTrainingRetry p) s = .next (s.after s)) ∧
      (¬ shut → exec (.portTrainingRetry p) s = .next (s.after { sent with net := { sent.net with wire := sent.net.wire ++ [(p, ident.sealed)] } })))) ∧
  (∀ (s : State) (p : Nat) (f : Flit) (i : Ident), s.portRuns p = true → (s.port p).state = .training → f.body = .ident i →
    let q := s.port p
    let w := min (popcount 4 q.lanes) i.lanes
    (q.retired = true ∨ f.crc ≠ f.crcOf ∨ f.uncorrectable = true → exec (.flitIdent p f) s = .next (s.after s)) ∧
    (q.retired = false → f.crc = f.crcOf → f.uncorrectable = false →
      (State.rolesMeet p i.port = false → exec (.flitIdent p f) s = .next (s.after (s.setPort p { q with state := .miswired, nbr := some i, width := 0 }))) ∧
      (State.rolesMeet p i.port = true → w < 2 → exec (.flitIdent p f) s = .next (s.after (s.setPort p { q with state := .down, nbr := some i }))) ∧
      (State.rolesMeet p i.port = true → 2 ≤ w → ∃ u, exec (.flitIdent p f) s = .next (s.after u) ∧
        (u.port p).state = .up ∧ (u.port p).width = w ∧ (u.port p).rxSeq = 0 ∧ (u.port p).awaiting = false)))

/-- The flits of the link: a bad flit is not taken in and asks for the one expected; IDLE and RETRY_REQ return
acknowledgements and credits and reach no memory, and RETRY_REQ sends what is kept again; a receiver asks again while it
waits, acknowledges by its timer, and a port whose retry is exhausted goes down for good. After the quiet interval the fabric
epoch is inverted.
Where the manual leaves a point open, the model's choices are those of log entries 76 and 77. -/
def Obligations.LinkRetry : Prop :=
  (∀ row ∈ flitCommands, ∀ (s : State) (p : Nat) (f : Flit), s.portRuns p = true → s.portUp p = true → f.type = row.2 →
    f.uncorrectable = true ∨ f.crc ≠ f.crcOf ∨ malformed f = true → ∃ u,
    exec (row.1 p f) s = .next (s.after u) ∧ (u.port p).rxSeq = (s.port p).rxSeq ∧ (u.port p).awaiting = true ∧ (u.port p).asked = (s.port p).asked + 1 ∧
    Only [.net, .ctr, .job, .trace] s u) ∧
  (∀ (s : State) (p : Nat) (f : Flit), s.portRuns p = true → s.portUp p = true → f.uncorrectable = false → f.crc = f.crcOf → malformed f = false →
    (f.type = FT_IDLE → f.ackValid = true → ∀ i, State.retryAt (s.port p) f.ack = some i → s.net.held = [] → s.net.change = .idle →
      ∃ u, exec (.flitIdle p f) s = .next (s.after u) ∧ (u.port p).retry = (s.port p).retry.drop (i + 1) ∧ (u.port p).rxSeq = (s.port p).rxSeq ∧
        Only [.net, .ctr, .trace] s u) ∧
    (f.type = FT_RETRY_REQ → f.ackValid = true → ∀ i, State.retryAt (s.port p) f.ack = some i → s.net.held = [] → s.net.change = .idle →
      ∃ u, exec (.flitRetryReq p f) s = .next (s.after u) ∧ (u.port p).retry = (s.port p).retry.drop i ∧
        (u.net.wire.drop s.net.wire.length).map (fun x => (x.1, x.2.seq, x.2.words)) = ((s.port p).retry.drop i).map (fun x => (p, x.seq, x.words)) ∧
        Only [.net, .ctr, .trace] s u)) ∧
  (∀ (s : State) (p : Nat), s.portRuns p = true →
    (s.portUp p = true → (s.port p).awaiting = true → ∃ f, f.type = FT_RETRY_REQ ∧ f.ack = (s.port p).rxSeq % 4096 ∧ ∃ u,
      exec (.retryReqRepeat p) s = .next (s.after u) ∧ u.net.wire = s.net.wire ++ [(p, f)] ∧ (u.port p).asked = (s.port p).asked + 1 ∧ Only [.net] s u) ∧
    (s.portUp p = false ∨ (s.port p).awaiting = false → exec (.retryReqRepeat p) s = .next (s.after s)) ∧
    (s.portUp p = true → (s.port p).sinceAck ≠ 0 → ∃ f, f.type = FT_IDLE ∧ f.ack = ((s.port p).rxSeq + 4095) % 4096 ∧ ∃ u,
      exec (.ackTimer p) s = .next (s.after u) ∧ u.net.wire = s.net.wire ++ [(p, f)] ∧ (u.port p).sinceAck = 0 ∧ Only [.net] s u) ∧
    (s.portUp p = false ∨ (s.port p).sinceAck = 0 → exec (.ackTimer p) s = .next (s.after s)) ∧
    (s.exhausted p = true → ∃ u, exec (.retryExhausted p) s = .next (s.after u) ∧ (u.port p).state = .down ∧ (u.port p).retired = true ∧ (u.port p).retry = [] ∧
      u.unitGood UK_VPORT p = false) ∧
    (s.exhausted p = false → exec (.retryExhausted p) s = .next (s.after s))) ∧
  (∀ s : State, s.on = true →
    (s.net.change = .quiet → ∃ u, exec .quietIntervalExpiry s = .next (s.after u) ∧ u.net.epoch = !s.net.epoch) ∧
    (s.net.change ≠ .quiet → exec .quietIntervalExpiry s = .next (s.after s)))

/-- A good sequenced flit is taken in order, once: the one expected goes on, to this pier or onward, and another changes no
memory. One for this pier takes its effect: WRITE writes where it may, READ_REQ is answered to its return address, SIGNAL
adds to its object, a piece of COLL is kept until its last, and CTRL's message is taken in.
Where the manual leaves a point open, the model's choices are those of log entries 60, 72, 78 and 79. -/
def Obligations.FlitsTakeEffectInOrder : Prop :=
  (∀ row ∈ flitCommands, sequencedType row.2 = true → ∀ (s : State) (p : Nat) (f : Flit), s.portRuns p = true → s.portUp p = true → f.type = row.2 →
    f.uncorrectable = false → f.crc = f.crcOf → malformed f = false →
    let g := f.withHdr 88 83 (f.ttl - 1)
    (f.seq ≠ (s.port p).rxSeq → ∃ u, exec (row.1 p f) s = .next (s.after u) ∧ (u.port p).rxSeq = (s.port p).rxSeq ∧ u.mem = s.mem ∧ u.coll = s.coll ∧ u.host = s.host) ∧
    (f.seq = (s.port p).rxSeq → s.pierId ≠ 0xFFF → f.epoch = s.net.epoch → 1 < f.ttl → ∃ v,
      Only [.net, .ctr, .trace] s v ∧ (v.port p).rxSeq = ((s.port p).rxSeq + 1) % 4096 ∧ v.net.held = s.net.held ∧ v.net.maps = s.net.maps ∧
      (f.type = FT_COLL ∨ f.dst = s.pierId →
        exec (row.1 p f) s = .next (s.after (s.take ((((v.deliver p g).freeBuffer (some (p, f.vc))).acked p).pump.settleChange) (row.1 p f).writes))) ∧
      (f.type ≠ FT_COLL → f.dst ≠ s.pierId → f.dst < 0x800 →
        exec (row.1 p f) s = .next (s.after (s.take (((v.hold { src := some (p, f.vc), flit := g }).acked p).pump.settleChange) (row.1 p f).writes)))) ∧
    (f.seq = (s.port p).rxSeq → s.pierId ≠ 0xFFF → f.epoch ≠ s.net.epoch ∨ f.ttl ≤ 1 → ∃ u,
      exec (row.1 p f) s = .next (s.after u) ∧ (u.port p).rxSeq = ((s.port p).rxSeq + 1) % 4096 ∧ u.mem = s.mem ∧ u.coll = s.coll ∧ u.host = s.host)) ∧
  (∀ (v : State) (p : Nat) (f : Flit), f.body = .none →
    (f.type = FT_WRITE → ((∀ i < f.bytes.length, v.fabricWrites (f.addr + i) = true) → (v.deliver p f).mem = (v.write f.addr f.bytes).mem) ∧
      ((∀ i < f.bytes.length, v.fabricWrites (f.addr + i) = false) → (v.deliver p f).mem = v.mem)) ∧
    (f.type = FT_READ_REQ →
      let ret := f.words.getD 0 0 + f.words.getD 1 0 * 2 ^ 32
      let n := min 4096 (f.words.getD 2 0)
      v.ecc = [] → n ≠ 0 → ret < 2 ^ 60 → (∀ i < n, v.fabricServes (f.addr + i) = true ∧ v.reach .move false (f.addr + i) = true) →
      v.deliver p f = v.sendBytes (ret / 2 ^ 48) (ret % 2 ^ 48) (f.tag % 2) .none (v.bytes f.addr n)) ∧
    (f.type = FT_SIGNAL → v.computing = true → v.syncMode (f.words.getD 0 0 % 65536) = 0 →
      (v.deliver p f).syncCount (f.words.getD 0 0 % 65536) = min (v.syncCount (f.words.getD 0 0 % 65536) + f.words.getD 1 0) 0xFFFFFFFF)) ∧
  (∀ (v : State) (p : Nat) (f : Flit) (h : CollHead), f.body = .coll h → v.computing = true → f.eom = false →
    v.deliver p f = { v with coll := { v.coll with parts := aset v.coll.parts (f.srcPier, h) (aget v.coll.parts (f.srcPier, h) [] ++ f.bytes) } }) ∧
  (∀ (v : State) (p : Nat) (f : Flit), f.type = FT_CTRL →
    (∀ q, f.body = .ctrl (.notice q) → q ∈ (v.deliver p f).job.notices ∧ (v.job.running = true → 3 ∈ (v.deliver p f).job.holds)) ∧
    (f.body = .ctrl .jobAbort → (v.deliver p f).gate.abort = true) ∧
    (∀ q, f.body = .ctrl (.jobAssign q) → (v.deliver p f).gate.assign = v.gate.assign ++ [(EVENT_ID, q)]) ∧
    (∀ o n r b k, f.body = .ctrl (.operator o n r b k) → v.host.ops.length < 64 → v.job.running = false →
      ∃ x, (v.deliver p f).host.ops = v.host.ops ++ [x] ∧ x.origin = o ∧ x.cmdId = n ∧ x.record = r ∧ x.block = b ∧ x.crc = k ∧ x.phase = .queued))

/-! ### Streams -/

/-- Only the instruction at its stream's head does anything: any other is not issued; one whose wait is not satisfied waits
for its sync object, and one behind an open kernel of its stream waits for the engine. -/
def Obligations.StreamHeadsWait : Prop :=
  ∀ row ∈ streamCommands, ∀ (s : State) (r : SRef),
    (s.runs r = false → exec (row.1 r) s = .next s) ∧
    (s.runs r = true → ¬ s.AtHead r row.2 → exec (row.1 r) s = .next (s.after s)) ∧
    (s.AtHead r row.2 → s.waitOk r (s.head r) = false → exec (row.1 r) s = .next (s.after (s.setStream r { s.stream r with phase := .waitSync }))) ∧
    (s.AtHead r row.2 → s.waitOk r (s.head r) = true → State.kernelOpen (s.stream r) = true →
      exec (row.1 r) s = .next (s.after (s.setStream r { s.stream r with phase := .waitEngine })))

/-- The control instructions: LOOP and LOOPM open a loop or skip its body, ENDLOOP goes round, BRIDX branches, FENCE, GATE and
MARK wait for what they wait for, END ends the step, and SWAIT is its wait; a step begins at index 0. Other streams stand.
Where the manual leaves a point open, the model's choices are those of log entry 46. -/
def Obligations.StreamControl : Prop :=
  (∀ (s : State) (r : SRef), let t := s.stream r; let w := s.head r
    (s.HeadReady r OP_SWAIT → ∃ u, exec (.swait r) s = .next (s.after u) ∧ s.GoneOn u r (t.pc + 1) .ready t.loops ∧ s.Silent u r) ∧
    (s.HeadReady r OP_LOOP → ∃ u, exec (.loop r) s = .next (s.after u) ∧ s.Silent u r ∧
      (fld w 127 112 = 0 → s.GoneOn u r (matchEnd (s.opcodesFrom r (t.pc + 1)) (t.pc + 1) 0 + 1) .ready t.loops) ∧
      (fld w 127 112 ≠ 0 → s.GoneOn u r (t.pc + 1) .ready ({ start := t.pc, count := fld w 127 112, idx := 0 } :: t.loops))) ∧
    (s.HeadReady r OP_LOOPM → s.ecc = [] →
      let a := fld w 127 80
      let g := match r with | .u _ => Agent.tier | .f k | .b k => Agent.drain k
      let n := min (leNat ((if State.isU r then (List.range 4).map (fun i => s.byte (a + i)) else s.readBy g a 4).map (·.1))) (max (fld w 79 64) 1)
      ∃ u, exec (.loopm r) s = .next (s.after u) ∧
        (n = 0 → s.GoneOn u r (matchEnd (s.opcodesFrom r (t.pc + 1)) (t.pc + 1) 0 + 1) .ready t.loops) ∧
        (n ≠ 0 → s.GoneOn u r (t.pc + 1) .ready ({ start := t.pc, count := n, idx := 0 } :: t.loops))) ∧
    (s.HeadReady r OP_ENDLOOP → ∃ u, exec (.endloop r) s = .next (s.after u) ∧ s.Silent u r ∧
      (t.loops = [] → s.GoneOn u r (t.pc + 1) .ready []) ∧
      (∀ l ls, t.loops = l :: ls → l.idx + 1 < l.count → s.GoneOn u r (l.start + 1) .ready ({ l with idx := l.idx + 1 } :: ls)) ∧
      (∀ l ls, t.loops = l :: ls → l.count ≤ l.idx + 1 → s.GoneOn u r (t.pc + 1) .ready ls)) ∧
    (s.HeadReady r OP_BRIDX → ∃ u, exec (.bridx r) s = .next (s.after u) ∧ s.Silent u r ∧ s.GoneOn u r
      (if State.brCond (fld w 109 108) (t.index (fld w 111 110)) (fld w 95 64) then ((t.pc : Int) + sext 16 (fld w 127 112)).toNat else t.pc + 1) .ready t.loops) ∧
    (s.HeadReady r OP_END → ∃ u, exec (.end_ r) s = .next (s.after u) ∧ s.GoneOn u r (t.pc + 1) .ended t.loops ∧ s.Silent u r)) ∧
  (∀ (s : State) (r : SRef), let t := s.stream r; let w := s.head r
    (s.HeadReady r OP_FENCE → t.quiet = true → ∃ u, exec (.fence r) s = .next (s.after u) ∧ s.GoneOn u r (t.pc + 1) .ready t.loops ∧ s.Silent u r) ∧
    (s.HeadReady r OP_FENCE → t.quiet = false → exec (.fence r) s = .next (s.after (s.setStream r { t with phase := .waitFence }))) ∧
    (s.HeadReady r OP_GATE → State.isU r = false ∨ t.quiet = true →
      (s.gateOpen r = true → ∃ u, exec (.gate r) s = .next (s.after u) ∧ s.GoneOn u r (t.pc + 1) .ready t.loops ∧ (u.stream r).gated = true ∧ s.Silent u r) ∧
      (s.gateOpen r = false → exec (.gate r) s = .next (s.after (s.setStream r { t with phase := .gate, ready := State.isU r || t.ready })))) ∧
    (s.HeadReady r OP_GATE → State.isU r = true → t.quiet = false → exec (.gate r) s = .next (s.after (s.setStream r { t with phase := .waitFence }))) ∧
    (s.HeadReady r OP_MARK → bitOf w 93 = false ∨ t.quiet = true → ∃ u, exec (.mark r) s = .next (s.after u) ∧ s.GoneOn u r (t.pc + 1) .ready t.loops ∧
      (u.stream r).marks = (if fld w 95 94 = 0 then (if 16 ≤ t.marks.length then t.marks else fld w 127 96 :: t.marks)
        else if fld w 95 94 = 1 then t.marks.drop 1 else t.marks)) ∧
    (s.HeadReady r OP_MARK → bitOf w 93 = true → t.quiet = false → exec (.mark r) s = .next (s.after (s.setStream r { t with phase := .waitFence })))) ∧
  (∀ (s : State) (r : SRef), s.runs r = true → s.ownLeaf.isSome = true →
    let t := s.stream r
    let next := if t.phase = .ended then t.step + 1 else t.step
    s.job.running = true → s.job.starting = false → (s.ctx r).active = true → t.phase = .ended ∨ t.phase = .inactive →
    next < s.job.startStep + 2 ∨ s.pass2Done (next - 2) = true → next ≤ s.job.decided + 1 → s.job.dropSignals = false →
    s.job.steps = 0 ∨ next < s.job.startStep + s.job.steps → ∃ u,
    exec (.stepBegin r) s = .next (s.after u) ∧ next ∈ u.job.begun ∧ (u.stream r).pc = 0 ∧ (u.stream r).phase = .ready ∧ (u.stream r).step = next ∧
    (u.stream r).loops = [] ∧ (u.stream r).gated = false ∧ (u.stream r).marks = [] ∧ (u.stream r).nextSeq = t.nextSeq ∧
    (u.stream r).inflight = t.inflight ∧ (∀ q, q ≠ r → u.stream q = s.stream q) ∧ (next ∈ s.job.begun → u.mem = s.mem))

/-- The sync instructions: SADD adds to its object behind the stream's earlier signals, SSET sets its count, and SSPAN adds on
each pier of a span; a handle that names nothing adds nowhere. An instruction whose work is done completes, and is not in
flight as incomplete again. -/
def Obligations.SyncInstructions : Prop :=
  (∀ (s : State) (r : SRef), let t := s.stream r; let w := s.head r; let id := State.syncTarget r t w
    (s.HeadReady r OP_SADD → ∃ u, exec (.sadd r) s = .next (s.after u) ∧ s.GoneOn u r (t.pc + 1) .ready t.loops ∧
      (t.inflight = [] → t.muted = [] → s.syncMode id = 0 → u.syncCount id = min (s.syncCount id + max (fld w 127 96) 1) 0xFFFFFFFF ∧
        ∀ j, j % 65536 ≠ id % 65536 → u.syncCount j = s.syncCount j)) ∧
    (s.HeadReady r OP_SSET → ∃ u, exec (.sset r) s = .next (s.after u) ∧ s.GoneOn u r (t.pc + 1) .ready t.loops ∧
      u.syncCount id = fld w 127 96 ∧ (∀ j, j % 65536 ≠ id % 65536 → u.syncCount j = s.syncCount j) ∧
      ∀ a, a < State.syncAddr id + 12 ∨ State.syncAddr id + 16 ≤ a → u.byte a = s.byte a) ∧
    (s.HeadReady r OP_SSPAN → let h := Handle.ofNat (fld w 127 96)
      ∃ u, exec (.sspan r) s = .next (s.after u) ∧ s.GoneOn u r (t.pc + 1) .ready t.loops ∧
      (s.handleOk h = false ∨ s.spanPiers h = [] → u.mem = s.mem) ∧
      (s.handleOk h = true → t.muted = [] → s.spanPiers h = [s.pierId] → s.syncMode id = 0 →
        u.syncCount id = min (s.syncCount id + fld w 95 64) 0xFFFFFFFF ∧ ∀ j, j % 65536 ≠ id % 65536 → u.syncCount j = s.syncCount j))) ∧
  (∀ (s : State) (r : SRef) (seq : Nat), s.runs r = true →
    ((s.stream r).inflight.find? (fun x => x.seq == seq && x.done && !x.completed) = none → exec (.instructionCompletion r seq) s = .next (s.after s)) ∧
    (∀ x, (s.stream r).inflight.find? (fun x => x.seq == seq && x.done && !x.completed) = some x → ∃ u,
      exec (.instructionCompletion r seq) s = .next (s.after u) ∧
      (∀ y ∈ (u.stream r).inflight, y.seq = seq → y.done = true → y.completed = true) ∧
      (∀ y ∈ (s.stream r).inflight, y.seq ≠ seq → y.completed = false → y ∈ (u.stream r).inflight) ∧
      (u.stream r).pc = (s.stream r).pc ∧ (u.stream r).phase = (s.stream r).phase ∧ (∀ q, q ≠ r → u.stream q = s.stream q) ∧
      (x.clamped = true → u.job.clampedSeen = true)))

/-! ### Arrays -/

/-- TPROD and TBPROD put a tile on an array of the core: a chain goes on in its slot, a new one opens a slot with zero
accumulators, a tile that names nothing is passed over, and one without a slot, or held back by power or heat, waits. Memory
does not change. -/
def Obligations.TilesAreIssued : Prop :=
  ∀ row ∈ [((.tprod : SRef → Instr), OP_TPROD), (.tbprod, OP_TBPROD)], ∀ (s : State) (r : SRef), s.HeadReady r row.2 →
    let core := State.coreOf r; let t := s.stream r; let w := s.head r
    let n := s.tileNames r w
    let out := OpDesc.ofNat (s.nat (DrainDesc.ofNat (s.nat n.drainAddr 64)).outDesc 64)
    let null := State.tileOutside n out = true ∨ (s.tileClamp core n).isSome = true
    let run (b i : Nat) : TileRun := { stream := r, seq := t.nextSeq, word := w, rowAddr := n.rowAddr, colAddr := n.colAddr, place := n.place, bank := b, slot := i, last := IWord.tLast w }
    (null → ∃ u, exec (row.1 r) s = .next (s.after u) ∧ s.GoneOn u r (t.pc + 1) .ready t.loops ∧ u.mem = s.mem ∧
      (IWord.tCont w = true → IWord.tLast w = false → u.arrays = s.arrays)) ∧
    (¬ null → s.arrayHeld core = true → exec (row.1 r) s = .next (s.after (s.setStream r { t with phase := .waitEngine }))) ∧
    (∀ c, ¬ null → s.arrayHeld core = false → IWord.tCont w = true → State.contOk t n = true → t.chain = some c → ∃ u,
      exec (row.1 r) s = .next (s.after u) ∧ s.GoneOn u r (t.pc + 1) .ready t.loops ∧ u.mem = s.mem ∧
      (u.array core c.arr).queue = (s.array core c.arr).queue ++ [run c.bank c.slot] ∧
      (u.stream r).chain.isSome = !IWord.tLast w ∧ (∀ k y, (k, y) ≠ (core, c.arr) → u.array k y = s.array k y)) ∧
    (¬ null → s.arrayHeld core = false → IWord.tCont w = false → t.chain = none →
      (s.offerSlot core n.epoch (s.tileArrays r w) = none → ∃ u, exec (row.1 r) s = .next (s.after u) ∧
        (u.stream r).phase = .waitEngine ∧ (u.stream r).pc = t.pc ∧ (u.stream r).inflight = t.inflight ∧ u.mem = s.mem ∧ ∀ k y, (u.array k y).queue = (s.array k y).queue) ∧
      (∀ x b i, s.offerSlot core n.epoch (s.tileArrays r w) = some (x, b, i) → ∃ u,
        exec (row.1 r) s = .next (s.after u) ∧ s.GoneOn u r (t.pc + 1) .ready t.loops ∧ u.mem = s.mem ∧
        (u.array core x).queue = (s.array core x).queue ++ [run b i] ∧ (∀ k y, (k, y) ≠ (core, x) → (u.array k y).queue = (s.array k y).queue) ∧
        ((u.array core x).bank b).epoch = some n.epoch ∧ (u.stream r).chain.isSome = !IWord.tLast w ∧
        ∃ k, (u.array core x).slot b i = some k ∧ k.acc = List.replicate n.place.mLen (List.replicate n.place.nLen {}) ∧ k.stream = r ∧ k.step = t.step))

/-- An F-tile is lent to a B array with an empty bank, only where its stream lets it. An array accumulates its earliest tile
into its slot; the drain path takes the slot that completed first, writes nothing out of its reach, and frees the slot. -/
def Obligations.ArraysAccumulateAndDrain : Prop :=
  (∀ (s : State) (core : Nat), s.coreRuns core = true → (s.ctx (.f core)).lendEn = false ∨ IWord.tLend (s.head (.f core)) = false →
    exec (.lend core) s = .next (s.after s)) ∧
  (∀ (s : State) (core : Nat), s.AtHead (.f core) OP_TPROD → s.waitOk (.f core) (s.head (.f core)) = true →
    let r := SRef.f core; let t := s.stream r; let w := s.head r
    let n := s.tileNames r w
    let out := OpDesc.ofNat (s.nat (DrainDesc.ofNat (s.nat n.drainAddr 64)).outDesc 64)
    (s.ctx r).lendEn = true → IWord.tLend w = true → IWord.tCont w = false → t.chain = none → s.inRecovery core = false → s.arrayHeld core = false →
    s.offerSlot core n.epoch [.f] = none → s.bIdle core = true → State.tileOutside n out = false → s.tileClamp core n = none →
    ∀ x, x = (if (s.array core .b0).hasEmptyBank then Arr.b0 else .b1) → (s.array core x).hasEmptyBank = true → ∃ u b i,
      exec (.lend core) s = .next (s.after u) ∧ s.GoneOn u r (t.pc + 1) .ready t.loops ∧ (s.array core x).findSlot n.epoch = some (b, i) ∧
      (u.array core x).queue.length = (s.array core x).queue.length + 1 ∧ ∃ k, (u.array core x).slot b i = some k ∧ k.lent = true ∧ k.stream = r) ∧
  (∀ (s : State) (core : Nat) (x : Arr), s.coreRuns core = true →
    let a := s.array core x
    (a.queue = [] → exec (.accumulationComplete core x) s = .next (s.after s)) ∧
    (∀ q rest k, a.queue = q :: rest → a.slot q.bank q.slot = some k → q.bank < 2 → q.slot < 2 → ∃ u,
      exec (.accumulationComplete core x) s = .next (s.after u) ∧ (u.array core x).queue = rest ∧
      u.counter (.activity core x) AC_TILES = hold32 (s.counter (.activity core x) AC_TILES + 1) ∧
      (∀ j y, (j, y) ≠ (core, x) → u.array j y = s.array j y) ∧
      (k.closing = false → x ≠ .t →
        let ro := OpDesc.ofNat (s.nat q.rowAddr 64)
        let co := OpDesc.ofNat (s.nat q.colAddr 64)
        (u.array core x).slot q.bank q.slot = some { k with
          acc := s.runTile ro co (IWord.tRowT q.word) (IWord.tColT q.word) q.place k.acc, side := k.side || (ro.sideEn && co.sideEn) }))) ∧
  (∀ (s : State) (core : Nat) (x : Arr), s.coreRuns core = true →
    let a := s.array core x
    (a.draining = true ∨ a.full = [] → exec (.drainStart core x) s = .next (s.after s)) ∧
    (∀ p rest k e, a.draining = false → a.full = p :: rest → a.slot p.1 p.2 = some k → (a.bank p.1).epoch = some e → ∃ u,
      exec (.drainStart core x) s = .next (s.after u) ∧ u.array core x = { a with draining := true } ∧ (∀ j y, (j, y) ≠ (core, x) → u.array j y = s.array j y) ∧
      (s.ecc = [] → (DrainDesc.ofNat (s.nat e.drain 64)).vhookEn = false → ∀ b, s.reach (.drain core) true b = false → (u.byte b).1 = (s.byte b).1)) ∧
    (a.draining = false ∨ a.full = [] → exec (.drainComplete core x) s = .next (s.after s)) ∧
    (∀ p rest, a.draining = true → a.full = p :: rest → (∀ r, r = SRef.f core ∨ r = .b core → (s.stream r).phase ≠ .waitEngine) → ∃ u,
      exec (.drainComplete core x) s = .next (s.after u) ∧ (u.array core x).draining = false ∧ (u.array core x).full = rest ∧
      (p.1 < 2 → p.2 < 2 → (u.array core x).slot p.1 p.2 = none) ∧ (u.array core x).queue = a.queue ∧ u.mem = s.mem ∧
      (∀ j y, (j, y) ≠ (core, x) → u.array j y = s.array j y)))

/-! ### Engines, kernels and copies -/

/-- The engines run the instruction at their stream's head, which is then in flight with its work done: a V-engine program,
a routing kernel, a conversion, a camber pass or copy. The attention kernel and UP2 may wait.
Where the manual leaves a point open, the model's choices are those of log entries 45 and 55. -/
def Obligations.EnginesRunTheirInstructions : Prop :=
  (∀ row ∈ engineCommands, ∀ (s : State) (r : SRef), s.HeadReady r row.2 → ∃ u, exec (row.1 r) s = .next (s.after u) ∧ s.Worked u r) ∧
  (∀ row ∈ kernelCommands, ∀ (s : State) (r : SRef), s.HeadReady r OP_VRUN →
    (fld (s.head r) 111 104 = row.2 → ∃ u, exec (row.1 r) s = .next (s.after u) ∧ s.Worked u r) ∧
    (fld (s.head r) 111 104 ≠ row.2 → exec (row.1 r) s = .next (s.after s))) ∧
  (∀ (s : State) (r : SRef), s.HeadReady r OP_VRUN →
    (State.kernelCode (s.head r) = false → ∃ u, exec (.vrun r) s = .next (s.after u) ∧ s.Worked u r) ∧
    (State.kernelCode (s.head r) = true → exec (.vrun r) s = .next (s.after s))) ∧
  (∀ (s : State) (r : SRef), s.HeadReady r OP_VRUN → fld (s.head r) 111 104 = 0xA1 →
    let k := s.kernelOf r (s.head r)
    (State.kernelNull k = true → ∃ u, exec (.attentionKernel r) s = .next (s.after u) ∧ s.Worked u r ∧ u.mem = s.mem ∧ u.kernels = s.kernels) ∧
    (State.kernelNull k = false → s.arrayHeld k.core = true → exec (.attentionKernel r) s = .next (s.after (s.setStream r { s.stream r with phase := .waitEngine }))) ∧
    (State.kernelNull k = false → s.arrayHeld k.core = false → ∃ u, exec (.attentionKernel r) s = .next (s.after u) ∧
      ((s.Worked u r ∧ aget? u.kernels r = none) ∨
       ((u.stream r).phase = .waitEngine ∧ (u.stream r).pc = (s.stream r).pc ∧ (u.stream r).inflight = (s.stream r).inflight ∧ (aget? u.kernels r).isSome = true)))) ∧
  (∀ (s : State) (r : SRef), s.HeadReady r OP_UP2 →
    let held := s.fwHolds (s.stream r).step (State.coreOf r, IWord.didx (s.head r))
    (held = true → exec (.up2 r) s = .next (s.after (s.setStream r { s.stream r with phase := .waitEngine }))) ∧
    (held = false → s.job.needRecovery = true ∨ (s.doUp2 r (s.head r)).job.needRecovery = false → ∃ u, exec (.up2 r) s = .next (s.after u) ∧ s.Worked u r))

/-- What an engine writes lies within its reach: every byte outside it reads as before, whatever its operands and
descriptors name. -/
def Obligations.EnginesStayInReach : Prop :=
  ∀ (s : State) (r : SRef), s.runs r = true → s.ecc = [] → ∀ x ∈ confinedCommands r, ∃ u,
    exec x.1 s = .next (s.after u) ∧ ∀ a, s.reach x.2 true a = false → (u.byte a).1 = (s.byte a).1

/-- Copies: a fifth one in flight waits; MCOPY of one local row puts the source's bytes at the destination, as they were
before, MFILL fills with its pattern, and MBANKREAD outside debug mode is passed over. A trestle unit runs the next job of
its list where its wait is satisfied, within its own reach.
Where the manual leaves a point open, the model's choices are those of log entries 40 and 44. -/
def Obligations.CopiesAndTrestle : Prop :=
  (∀ row ∈ [((.mcopy : SRef → Instr), OP_MCOPY), (.mfill, OP_MFILL), (.mbankread, OP_MBANKREAD)], ∀ (s : State) (r : SRef), s.HeadReady r row.2 →
    4 ≤ s.copiesInFlight (State.coreOf r) → exec (row.1 r) s = .next (s.after (s.setStream r { s.stream r with phase := .waitEngine }))) ∧
  (∀ (s : State) (r : SRef), s.HeadReady r OP_MCOPY → s.copiesInFlight (State.coreOf r) < 4 →
    let c := CopyDesc.ofNat (s.descNat r (IWord.didx (s.head r)))
    let e := s.copyEnds r c
    let here (a : Nat) : Prop := State.fabricPier a = s.pierId ∧ isPageWindow (State.fabricLocal a) = false ∧ fld a 63 60 = 0
    here e.1 → here e.2 → ∃ u, exec (.mcopy r) s = .next (s.after u) ∧ s.GoneOn u r ((s.stream r).pc + 1) .ready (s.stream r).loops ∧
      (c.rows = 1 → s.ecc = [] → (∀ i < c.rowBytes, s.reach .move false (State.fabricLocal e.1 + i) = true ∧ s.reach .move true (State.fabricLocal e.2 + i) = true) →
        (∀ i < c.rowBytes, (u.byte (State.fabricLocal e.2 + i)).1 = (s.byte (State.fabricLocal e.1 + i)).1) ∧
        (∀ a, a < State.fabricLocal e.2 ∨ State.fabricLocal e.2 + c.rowBytes ≤ a → (u.byte a).1 = (s.byte a).1))) ∧
  (∀ (s : State) (r : SRef), s.HeadReady r OP_MFILL → s.copiesInFlight (State.coreOf r) < 4 →
    let c := CopyDesc.ofNat (s.descNat r (IWord.didx (s.head r)))
    let d := (s.copyEnds r c).2
    ∃ u, exec (.mfill r) s = .next (s.after u) ∧ s.Worked u r ∧
      (c.rows = 1 → State.fabricPier d = s.pierId → fld d 63 60 = 0 → (∀ i < c.fillBytes, s.reach .move true (State.fabricLocal d + i) = true) →
        (∀ i < c.fillBytes / 4 * 4, (u.byte (State.fabricLocal d + i)).1 = (natLE 4 (fld (s.head r) 95 64)).getD (i % 4) 0) ∧
        (∀ a, a < State.fabricLocal d ∨ State.fabricLocal d + c.fillBytes ≤ a → (u.byte a).1 = (s.byte a).1))) ∧
  (∀ (s : State) (r : SRef), s.HeadReady r OP_MBANKREAD → s.copiesInFlight (State.coreOf r) < 4 → ∃ u, exec (.mbankread r) s = .next (s.after u) ∧ s.Worked u r ∧
    (s.inDebug = false → u.mem = s.mem)) ∧
  (∀ (s : State) (c : Nat), s.clusterRuns c = true →
    let x := s.trestleCtx c; let t := s.trestleStep c; let e := s.trestleJob c t.pos
    (s.job.running = false ∨ x.active = false ∨ t.running = false ∨ s.clusterServed c = false → exec (.trestleJob c) s = .next (s.after s)) ∧
    (s.job.running = true → x.active = true → t.running = true → s.clusterServed c = true →
      (t.pos < x.count → s.entryReady e t.step = false → exec (.trestleJob c) s = .next (s.after { s with trestle := aset s.trestle c t })) ∧
      (x.count ≤ t.pos → exec (.trestleJob c) s = .next (s.after { s with trestle := aset s.trestle c { t with running := false, pos := max 1 t.pos } })) ∧
      (t.pos < x.count → s.entryReady e t.step = true → ∃ u, exec (.trestleJob c) s = .next (s.after u) ∧
        u.trestleOf c = { t with pos := t.pos + 1, running := decide (t.pos + 1 < x.count) } ∧ (∀ d, d ≠ c → u.trestleOf d = s.trestleOf d) ∧
        u.streams = s.streams ∧ (e.sigEn = false → s.ecc = [] → ∀ a, s.reach (.trestle c) true a = false → (u.byte a).1 = (s.byte a).1))))

/-! ### Collectives and the gate -/

/-- The collective list runs in order, at most 8 at a time, each entry once its wait is satisfied; rows of an expert land
once; a collective completes once all it receives is written and all it sends has left, and then signals.
Where the manual leaves a point open, the model's choices are those of log entries 61, 66 and 67. -/
def Obligations.CollectivesRunInOrder : Prop :=
  (∀ s : State, s.computing = true →
    let c := s.collCtx; let k := s.collList c
    let word := s.nat (c.list + 16 * k.pos) 16
    let e := ListEntry.ofNat word
    let d := CollDesc.ofNat (s.nat (c.dbase + 64 * e.desc) 64)
    (c.active = false ∨ s.job.running = false → exec .collectiveEntryStart s = .next (s.after s)) ∧
    (c.active = true → s.job.running = true →
      (k.started = false ∨ c.count ≤ k.pos ∨ s.entryReady e k.step = false ∨ 8 ≤ k.runs.length →
        exec .collectiveEntryStart s = .next (s.after { s with coll := k })) ∧
      (k.started = true → k.pos < c.count → s.entryReady e k.step = true → k.runs.length < 8 → ∃ u,
        exec .collectiveEntryStart s = .next (s.after u) ∧ u.coll.pos = k.pos + 1 ∧ u.coll.step = k.step ∧
        (d.kind = 0 ∨ 9 < d.kind → u.coll.runs = k.runs ∧ u.mem = s.mem) ∧
        (1 ≤ d.kind → d.kind ≤ 9 → ∃ x ∈ u.coll.runs, x.coll = e.collId ∧ x.step = k.step ∧ x.entry = word)))) ∧
  (∀ (s : State) (coll x : Nat), s.computing = true →
    (s.coll.runs.find? (fun r => r.coll == coll) = none → exec (.expertRowsLanded coll x) s = .next (s.after s) ∧ exec (.collectiveComplete coll) s = .next (s.after s)) ∧
    (∀ r, s.coll.runs.find? (fun r => r.coll == coll) = some r →
      let d := CollDesc.ofNat r.desc
      (d.kind = CK_ROUTED_FWD ∨ d.kind = CK_ROUTED_BWD → r.waiting = [] → x ∉ r.landed → (s.expertPlace d x).1 = (s.collGeo d).me → ∃ u,
        exec (.expertRowsLanded coll x) s = .next (s.after u) ∧ ∃ y ∈ u.coll.runs, y.coll = coll ∧ y.step = r.step ∧ y.landed = r.landed ++ [x]) ∧
      (x ∈ r.landed → exec (.expertRowsLanded coll x) s = .next (s.after s)) ∧
      (s.collReceived r = false ∨ s.collHeld r = true → exec (.collectiveComplete coll) s = .next (s.after s)) ∧
      (s.collReceived r = true → s.collHeld r = false → ∃ u, exec (.collectiveComplete coll) s = .next (s.after u) ∧
        u.coll.runs = s.coll.runs.filter (fun y => !(y.coll == r.coll && y.step == r.step)) ∧ u.streams = s.streams ∧
        (r.op.isSome = true → u.coll.opDone = s.coll.opDone ++ [(coll, r.bad)] ∧ u.mem = s.mem) ∧
        (r.op = none → u.coll.opDone = s.coll.opDone ∧
          let n := ListEntry.ofNat r.entry
          let id := State.resolveId n.sigPar n.sigId r.step 0
          (n.sigEn = false → u.mem = s.mem) ∧
          (n.sigEn = true → s.syncMode id = 0 → u.syncCount id = min (s.syncCount id + 1) 0xFFFFFFFF)))))

/-- Each pier votes once for each attempt, when its streams, trestle units and collectives have done their part; the
barrier decides when every vote is in, or without one that has not come in time; a hang is a fault of its step.
Where the manual leaves a point open, the model's choices are those of log entries 91, 103 and 104. -/
def Obligations.VotesAndTheDecision : Prop :=
  (∀ s : State, s.computing = true →
    (s.voteReady = false → exec .vote s = .next (s.after s)) ∧
    (s.voteReady = true → ∃ u, exec .vote s = .next (s.after u) ∧ u.gate.voted = some (s.job.decided, s.job.attempt) ∧ u.streams = s.streams ∧
      (s.barrierHead = s.pierId → s.job.decided < 2 ^ 64 → s.ownLeaf.getD 0 < 4096 → aget? u.gate.votes (s.ownLeaf.getD 0) = some s.ownVote.toNat ∧ u.job = s.job))) ∧
  (∀ s : State, s.sys.boot = .ready →
    let due := s.job.running = true ∧ s.barrierHead = s.pierId ∧ s.gate.arrived = none
    let g := gateFold s.gateClip s.skipPolicy s.job.decided s.job.attempt s.votesNow []
    (¬ due ∨ s.votesNow.length ≠ s.barrierPiers.length → exec .gateDecide s = .next (s.after s)) ∧
    (due → s.votesNow.length = s.barrierPiers.length → ∃ u, exec .gateDecide s = .next (s.after u) ∧ u.gate.arrived = some g.toNat ∧ u.mem = s.mem ∧ u.streams = s.streams) ∧
    (∀ l ls, (List.range s.barrierPiers.length).filter (fun l => !s.votesNow.any (·.leaf == l)) = l :: ls →
      (¬ due ∨ s.votesNow = [] → exec .voteTimeout s = .next (s.after s)) ∧
      (due → s.votesNow ≠ [] → exec .voteTimeout s = .next (s.after (s.take
        (let u := s.sendResult (gateFold s.gateClip s.skipPolicy s.job.decided s.job.attempt s.votesNow [(FB_UNIT, l)]); u.declareLost (u.barrierPiers.getD l u.pierId))
        Instr.voteTimeout.writes)))) ∧
    ((List.range s.barrierPiers.length).filter (fun l => !s.votesNow.any (·.leaf == l)) = [] → exec .voteTimeout s = .next (s.after s))) ∧
  (∀ (clip : F32) (skip : Bool) (step attempt : Nat) (vs : List VoteRec) (extra : List (Nat × Nat)),
    let g := gateFold clip skip step attempt vs extra
    (g.outcome = GO_PASS ↔ g.faults = 0) ∧ (g.outcome = GO_SKIP ↔ skip = true ∧ g.faults = 2 ^ FB_NONFINITE_G) ∧
    (∀ v ∈ vs, ∀ j, v.faults.testBit j = true → g.faults.testBit j = true) ∧ (∀ x ∈ extra, g.faults.testBit x.1 = true)) ∧
  (∀ (s : State) (r : SRef), s.runs r = true →
    let t := s.stream r
    let waits := t.phase = .waitSync ∨ t.phase = .waitEngine ∨ t.phase = .waitFence
    (s.job.running = false ∨ ¬ waits → exec (.hangIntervalExpiry r) s = .next (s.after s)) ∧
    (s.job.running = true → waits → ∃ u, exec (.hangIntervalExpiry r) s = .next (s.after u) ∧ u.streams = s.streams ∧
      (aget u.job.faults (max t.step s.job.decided) 0).testBit FB_HANG = true ∧
      u.gate.hung = some (s.gate.hung.getD (r, (s.headWait r).map (·.1)))))

/-- A step is committed or tried again whole: on a pass or a skip the next step is in flight at its first attempt and no
fault of the step is kept; on a failure the same step is in flight at its next attempt, every stream that had begun it is at
its beginning with nothing in flight, and signals are dropped until the fabric has changed its epoch.
Where the manual leaves a point open, the model's choices are those of log entries 97 and 172. -/
def Obligations.StepsCommitOrReplay : Prop :=
  (∀ s : State, s.sys.boot = .ready → s.gate.arrived = none → exec .gateResult s = .next (s.after s)) ∧
  (∀ (s : State) (v : Nat), s.sys.boot = .ready → s.gate.arrived = some v → s.ownLeaf.isSome = true →
    let g := GateRec.ofNat v
    let live := s.job.running = true ∧ g.step = s.job.decided ∧ g.attempt = min s.job.attempt 255
    (¬ live → exec .gateResult s = .next (s.after { s with gate := { s.gate with arrived := none } })) ∧
    (live → s.PlainBoundary → ∃ u, exec .gateResult s = .next (s.after u) ∧ u.gate.arrived = none ∧ u.job.running = true ∧ u.plan = s.plan ∧ u.fuses = s.fuses ∧
      (g.outcome < GO_FAIL → u.job.decided = g.step + 1 ∧ u.job.attempt = 0 ∧ u.job.lastSkip = decide (g.outcome = GO_SKIP) ∧
        (∀ f ∈ u.job.faults, g.step < f.1) ∧ u.gate.lastFail = none) ∧
      (GO_FAIL ≤ g.outcome → g.attempt < 7 → u.job.decided = s.job.decided ∧ u.job.attempt = s.job.attempt + 1 ∧ u.job.dropSignals = true ∧
        u.net.stopped = true ∧ u.gate.lastFail = some g.toNat ∧
        ∀ x ∈ s.streams, g.step ≤ (s.stream x.1).step → (u.stream x.1).pc = 0 ∧ (u.stream x.1).inflight = [] ∧ (u.stream x.1).gated = false)))

/-! ### Falsework and re-shard -/

/-- A generation's local copy is written once every shard has been read, and counted; a layer's shards are read once its UP2
has completed, and an UP2 held for them goes on; copies are verified and reported to the lowest leaf. A buddy's copy lands shard
by shard: a good one is noted, the last one completes the copy and is answered, and a bad one is asked for again, up to three
times. The barriers of a re-shard pass only when every pier has done its part.
Where the manual leaves a point open, the model's choices are those of log entries 94 and 108. -/
def Obligations.GenerationsAndTheirCopies : Prop :=
  ((∀ s : State, s.computing = true →
     (s.falsework.run = none → exec .generationLocalWritten s = .next (s.after s)) ∧
     (∀ g, s.falsework.run = some g →
       (g.localDone = true → exec .generationLocalWritten s = .next (s.after s)) ∧
       (g.localDone = false → g.unread = [] → s.falsework.dispute = none → ∃ u, exec .generationLocalWritten s = .next (s.after u) ∧
         u.falsework.run = (if g.buddyDone then none else some { g with localDone := true }) ∧
         u.counter .hiding FH_GENERATIONS = hold32 (s.counter .hiding FH_GENERATIONS + 1) ∧ u.streams = s.streams)) ∧
     (s.falsework.verifying = false → exec .copiesVerified s = .next (s.after s)) ∧
     (s.falsework.verifying = true → s.barrierHead ≠ s.pierId → exec .copiesVerified s =
       .next (s.after { s.sendCtrl s.barrierHead (.copies s.pierId s.copyReport) with falsework := { s.falsework with verifying := false } })) ∧
     (∀ p ∈ s.barrierPiers, s.falsework.verifying = true → s.barrierHead = s.pierId → p ≠ s.pierId → (∀ x ∈ s.falsework.copies, x.1 ≠ p) →
       exec .copiesVerified s = .next (s.after { s with falsework := { s.falsework with
         copies := aset s.falsework.copies s.pierId (s.copyReport.filter fun c => c.buddy || !(s.plan.subst.any fun x => x.2 == s.pierId)) } }))) ∧
   (∀ (s : State) (unit ldesc : Nat), s.computing = true → ldesc < 65536 →
     let t := s.stream (.u unit)
     let waits := t.phase = .waitEngine ∧ IWord.opcode (s.head (.u unit)) = OP_UP2 ∧ IWord.didx (s.head (.u unit)) = ldesc
     (s.falsework.run = none → ¬ waits → exec (.fwHoldRelease (unit * 65536 + ldesc)) s = .next (s.after s)) ∧
     (s.falsework.run = none → waits → ∃ u, exec (.fwHoldRelease (unit * 65536 + ldesc)) s = .next (s.after u) ∧
       (u.stream (.u unit)).phase = .ready ∧ (u.stream (.u unit)).pc = t.pc ∧ (∀ q, q ≠ .u unit → u.stream q = s.stream q) ∧ u.mem = s.mem) ∧
     (∀ g, s.falsework.run = some g → (unit, ldesc) ∈ g.unread → s.up2Done g.step (unit, ldesc) = true → ∃ u,
       exec (.fwHoldRelease (unit * 65536 + ldesc)) s = .next (s.after u) ∧ u.falsework.run = some { g with unread := g.unread.filter (· != (unit, ldesc)) }))) ∧
  (∀ (s : State) (i : Nat), s.sys.boot = .ready →
     (s.landingSlot = none → exec (.buddyShardLands i) s = .next (s.after s)) ∧
     (∀ b, s.landingSlot = some b →
       let h := s.genHeader b
       let e := s.nat (b + 64 + 64 * i) 64
       let f := s.falsework
       let n := aget f.resent (b, i) 0
       let good := beNat (sha256 (s.data (b + fld e 415 392 * LOC) (fld e 455 416))) = fld e 391 136
       (h.shards ≤ i ∨ (b, i) ∈ f.landed → exec (.buddyShardLands i) s = .next (s.after s)) ∧
       (i < h.shards → (b, i) ∉ f.landed →
         (good → (∃ j, j < h.shards ∧ j ≠ i ∧ (b, j) ∉ f.landed) →
           exec (.buddyShardLands i) s = .next (s.after { s with falsework := { f with landed := f.landed ++ [(b, i)] } })) ∧
         (good → (∀ j, j < h.shards → j = i ∨ (b, j) ∈ f.landed) →
           exec (.buddyShardLands i) s = .next (s.after (({ s.putHeader b { h with complete := true } with
             falsework := { f with landed := f.landed.filter (·.1 != b), resent := f.resent.filter (·.1.1 != b) } } : State).toOwner (.fwComplete s.pierId h.step)))) ∧
         (¬ good → n < 3 → exec (.buddyShardLands i) s =
           .next (s.after (({ s with falsework := { f with resent := aset f.resent (b, i) (n + 1) } }.bump .hiding FH_RESENDS).toOwner (.shardAgain i)))) ∧
         (¬ good → 3 ≤ n → ∃ u, exec (.buddyShardLands i) s = .next (s.after u) ∧ u.falsework.landed = f.landed)))) ∧
  (∀ s : State, s.computing = true →
     (s.falsework.reshard = none → exec .reshardStageBarrier s = .next (s.after s) ∧ exec .reshardInstallBarrier s = .next (s.after s)) ∧
     (∀ cmd raw ph, s.falsework.reshard = some (cmd, raw, ph) →
       let all (k : Nat) : Prop := ∀ p ∈ s.reshardPiers (CollDesc.ofNat raw), (p, k) ∈ s.falsework.reshardDone
       (ph ≠ RP_STAGE ∨ ¬ all RP_STAGE → exec .reshardStageBarrier s = .next (s.after s)) ∧
       (ph = RP_STAGE → all RP_STAGE → ∃ u, exec .reshardStageBarrier s = .next (s.after u) ∧ u.falsework.reshard = some (cmd, raw, RP_INSTALL) ∧
         (s.pierId, RP_INSTALL) ∈ u.falsework.reshardDone ∧ u.plan = s.plan) ∧
       (ph ≠ RP_INSTALL ∨ ¬ all RP_INSTALL → exec .reshardInstallBarrier s = .next (s.after s)) ∧
       (ph = RP_INSTALL → all RP_INSTALL → ∃ u, exec .reshardInstallBarrier s = .next (s.after u) ∧ u.falsework.reshard = none ∧ u.falsework.reshardDone = [])))

/-! ### Pages -/

/-- A page part is written and read at the page's frame: a name of no page is clamped to Null; a resident page takes and
gives its bytes; a dropped one reads zero; one spilled or coming in makes the action wait.
Where the manual leaves a point open, the model's choices are those of log entry 32. -/
def Obligations.PagesAreWrittenAndRead : Prop :=
  ∀ (s : State) (p : PagePart), s.computing = true →
    let n := PageName.ofAddr p.win
    let q := s.seqSlot n.slot
    let e := q.pteBase + n.rel
    let pe := s.pageEntry e
    let row := State.partRow q.g12 n.part p.row0 0 p.rowBytes
    let a := State.frameAddr pe.frame + row.1
    let waits (w : PageWait) : State := { s with pages := { s.pages with waiting := s.pages.waiting ++ [w] } }
    (s.pageOk n = false ∨ 4 < n.part →
      (∃ c : ClampRec, c.clamp = CL_NULL ∧ exec (.pagePartWrite p) s = .next (s.after (s.report c))) ∧
      (p.pier = none → p.rows = 1 → (∀ i < p.rowBytes, s.reach .move true (p.other + i) = true) → ∃ u,
        exec (.pagePartRead p) s = .next (s.after u) ∧ ∀ i < p.rowBytes, (u.byte (p.other + i)).1 = 0#8)) ∧
    (s.pageOk n = true → n.part ≤ 4 →
      (pe.state = .resident → p.pier = none → p.rows = 1 → (∀ i < row.2, s.mapped (a + i) = true) → ∃ u,
        exec (.pagePartWrite p) s = .next (s.after u) ∧ (∀ i < row.2, (u.byte (a + i)).1 = (s.byte (p.other + i)).1) ∧ u.pages = s.pages ∧
        (e < 2097152 → (u.pageEntry e).state = .resident ∧ (u.pageEntry e).frame = pe.frame ∧ (u.pageEntry e).ddrValid = false) ∧
        (∀ x, x < a ∨ a + row.2 ≤ x → x < State.pageAddr e ∨ State.pageAddr e + 8 ≤ x → (u.byte x).1 = (s.byte x).1)) ∧
      (p.pier = none → p.rows = 1 → (∀ i < row.2, s.reach .move true (p.other + i) = true) → pe.state = .resident ∨ pe.state = .dropped → ∃ u,
        exec (.pagePartRead p) s = .next (s.after u) ∧ u.pages = s.pages ∧
        (∀ i < row.2, (u.byte (p.other + i)).1 = if pe.state = .resident then (s.byte (a + i)).1 else 0#8) ∧
        (∀ x, x < p.other ∨ p.other + row.2 ≤ x → (u.byte x).1 = (s.byte x).1)) ∧
      (pe.state = .flight → pe.inward = true →
        exec (.pagePartWrite p) s = .next (s.after (waits (.write p))) ∧ exec (.pagePartRead p) s = .next (s.after (waits (.read p)))) ∧
      (pe.state = .spilled → (∃ u, exec (.pagePartWrite p) s = .next (s.after u) ∧ u.pages.waiting = s.pages.waiting ++ [.write p]) ∧
        ∃ u, exec (.pagePartRead p) s = .next (s.after u) ∧ u.pages.waiting = s.pages.waiting ++ [.read p]))

/-- Leases are counted, saturating, and answered with the leading dropped blocks; RELEASE takes one back and CLEAR empties
every page of an unleased layer-head, once none is in flight. A page copied out is spilled, or stays where it was wanted
meanwhile; one that comes in is resident; its 64 KiB are moved.
Where the manual leaves a point open, the model's choices are those of log entry 31. -/
def Obligations.LeasesAndFlights : Prop :=
  (∀ (s : State) (win dst : Nat), s.computing = true →
     (s.partHead win = none → ∃ c : ClampRec, c.clamp = CL_NULL ∧
       exec (.lease win dst) s = .next (s.after ((s.report c).writeBy .move dst (List.replicate 4 (0#8, false)))) ∧
       exec (.release win) s = .next (s.after (s.report c)) ∧ exec (.clear win) s = .next (s.after (s.report c))) ∧
     (∀ lh, s.partHead win = some lh →
       let q := s.seqSlot lh.1
       let c := s.leaseCount lh
       let es := State.headEntries q lh
       (∃ u, exec (.lease win dst) s = .next (s.after u) ∧ u.leaseCount lh = (if c < 65535 then c + 1 else c) ∧ (∀ k, k ≠ lh → u.leaseCount k = s.leaseCount k) ∧
         (65535 ≤ c → u.counter .page PC_SAT = hold32 (s.counter .page PC_SAT + 1)) ∧
         (q.anchored = false → (∀ i < 4, s.reach .move true (dst + i) = true) → u.nat dst 4 = s.leadingDropped lh)) ∧
       (c = 0 → exec (.release win) s = .next (s.after (s.bump .page PC_UNDER))) ∧
       (c ≠ 0 → exec (.release win) s = .next (s.after { s with pages := { s.pages with
         leases := aset s.pages.leases lh (c - 1), released := s.pages.released.filter (· != lh) ++ [lh] } })) ∧
       (c ≠ 0 → ∃ k : ClampRec, k.clamp = CL_NULL ∧ exec (.clear win) s = .next (s.after (s.report k))) ∧
       (c = 0 → (∃ f ∈ s.pages.flights, f.entry ∈ es) →
         exec (.clear win) s = .next (s.after { s with pages := { s.pages with waiting := s.pages.waiting ++ [.clear win] } })) ∧
       (c = 0 → (∀ f ∈ s.pages.flights, f.entry ∉ es) → ∃ u, exec (.clear win) s = .next (s.after u) ∧ u.pages = s.pages ∧
         (∀ e ∈ es, e < 2097152 → u.pageEntry e = PageEntry.empty) ∧
         ∀ a, (∀ e ∈ es, a < State.pageAddr e ∨ State.pageAddr e + 8 ≤ a) → u.byte a = s.byte a))) ∧
  (∀ (s : State) (e : Nat), s.computing = true → s.pages.waiting = [] →
     let pe := s.pageEntry e
     (s.pages.flights.find? (fun f => f.entry == e && f.out) = none → exec (.spillLands e) s = .next (s.after s)) ∧
     (s.pages.flights.find? (fun f => f.entry == e && !f.out) = none → exec (.fetchLands e) s = .next (s.after s)) ∧
     (∀ f, s.pages.flights.find? (fun f => f.entry == e && f.out) = some f → e < 2097152 → ∃ u, exec (.spillLands e) s = .next (s.after u) ∧
       u.pages.flights = s.pages.flights.filter (·.entry != e) ∧ (u.pageEntry e).state = (if f.keep then .resident else .spilled) ∧
       (u.pageEntry e).ddrValid = true ∧ (u.pageEntry e).ddr = pe.ddr ∧
       ((∀ i < 0x10000, s.mapped (State.spillAddr pe.ddr + i) = true) → ∀ i < 0x10000, (u.byte (State.spillAddr pe.ddr + i)).1 = (s.byte (State.frameAddr pe.frame + i)).1)) ∧
     (∀ f, s.pages.flights.find? (fun f => f.entry == e && !f.out) = some f → e < 2097152 → ∃ u, exec (.fetchLands e) s = .next (s.after u) ∧
       u.pages.flights = s.pages.flights.filter (·.entry != e) ∧ (u.pageEntry e).state = .resident ∧ (u.pageEntry e).inward = false ∧
       (u.pageEntry e).frame = pe.frame ∧
       ((∀ i < 0x10000, s.mapped (State.frameAddr pe.frame + i) = true) → ∀ i < 0x10000, (u.byte (State.frameAddr pe.frame + i)).1 = (s.byte (State.spillAddr pe.ddr + i)).1)))

/-! ### Scrubbing, watchdogs, observability and ageing -/

/-- Ring oscillators are read cluster by cluster, and the day's sample takes one entry for each cluster read and each stack
and starts the day anew; the test of an F-engine under test leaves its outcome.
Where the manual leaves a point open, the model's choices are those of log entry 160. -/
def Obligations.AgeingIsSampled : Prop :=
  (∀ (s : State) (c v : Nat), s.computing = true →
    (c < 68 → exec (.roReading c v) s = .next (s.after { s with age := { s.age with ro := aset s.age.ro c (aget s.age.ro c [] ++ [v]) } })) ∧
    (68 ≤ c → exec (.roReading c v) s = .next (s.after s))) ∧
  (∀ s : State, s.sys.boot = .ready → ∃ u, exec .ageingDailySample s = .next (s.after u) ∧ u.age.ro = [] ∧ u.age.eye = [] ∧
    (∀ c < 68, (aget s.age.ro c []).length ≤ (aget s.age.ro c []).sum → aget s.age.ro c [] ≠ [] →
      ∃ p, aget u.age.samples (1, c) [] = aget s.age.samples (1, c) [] ++ [p]) ∧
    (∀ i < 12, ∃ p, aget u.age.samples (2, i) [] = aget s.age.samples (2, i) [] ++ [p])) ∧
  (∀ (s : State) (core : Nat) (pass : Bool), s.computing = true →
    (s.gate.underTest = some core → exec (.fEngineInServiceTest core pass) s = .next (s.after { s with gate := { s.gate with testPass := some pass } })) ∧
    (s.gate.underTest ≠ some core → exec (.fEngineInServiceTest core pass) s = .next (s.after s)))

/-! ### Number formats and windows -/

/-- Every code of the formats that products take decodes into the keystone form exactly, and a finite keystone is
normalised. -/
def Obligations.KeystoneKeepsTheValue : Prop :=
  ∀ (e : Elem) (c : Nat), e ≠ .fp32 → c < 2 ^ e.bits →
    (e.keystone c).value.Same (e.decode c) ∧
    ((e.keystone c).exp ≠ 0 → (e.keystone c).exp ≠ 1023 → (e.keystone c).sig.getMsbD 0 = true) ∧ ((e.keystone c).exp = 0 → (e.keystone c).sig = 0)

/-- The scale targets, the UE8M0 block scale under FIT and MX, and the amax of a set of values: the largest magnitude of its
finite members, 0 where there is none. -/
def Obligations.BlockScalesFit : Prop :=
  (Elem.target .b1 = (1, 1, 0) ∧ Elem.target .t2 = (1, 1, 0) ∧ Elem.target .i2 = (1, 1, 0) ∧ Elem.target .i4 = (7, 1, 2) ∧ Elem.target .p4 = (6, 1, 2) ∧
    Elem.target .p6a = (28, 1, 4) ∧ Elem.target .p6b = (15, 2, 2) ∧ Elem.target .e4m3 = (448, 1, 8) ∧ Elem.target .e5m2 = (57344, 1, 15) ∧ Elem.target .i8 = (127, 1, 6)) ∧
  (∀ (e : Elem) (mx : Bool) (d : Nat), blockScale .ue8m0 e mx 0 d = (0x7F, [])) ∧
  (∀ (e : Elem) (mx : Bool) (n d : Nat), 0 < n → 0 < d → ∃ x : Int,
    (mx = false → quotLe (n * e.target.2.1) (d * e.target.1) (1, x) ∧ ¬ quotLe (n * e.target.2.1) (d * e.target.1) (1, x - 1)) ∧
    (mx = true → quotLe d n (1, -(x + e.target.2.2)) ∧ ¬ quotLe d n (1, -(x + e.target.2.2 + 1))) ∧
    blockScale .ue8m0 e mx n d = if x < -127 then (0, [SCALE_UNDERFLOW]) else if 127 < x then (254, [SCALE_OVERFLOW]) else ((x + 127).toNat, [])) ∧
  (∀ xs : List PV, (∀ s n d p, (Ext.fin s n d, p) ∈ xs → 0 < d) →
    (∀ s n d p, (Ext.fin s n d, p) ∈ xs → n * (amaxOf xs).d ≤ (amaxOf xs).n * d) ∧
    ((amaxOf xs).n = 0 ∨ ∃ s p, (Ext.fin s (amaxOf xs).n (amaxOf xs).d, p) ∈ xs))

/-- Windows are addressed by slot: a change of binding that serves the same slots leaves every address as it was, and a slot
that nothing serves has no window. -/
def Obligations.WindowsFollowSlots : Prop :=
  (∀ (s : State) (fp : FloorPlan), (∀ k, ({ s with fp := fp } : State).coreServed k = s.coreServed k) →
    (∀ k, ({ s with fp := fp } : State).clusterServed k = s.clusterServed k) →
    ∀ a, ({ s with fp := fp } : State).byte a = s.byte a ∧ ({ s with fp := fp } : State).mapped a = s.mapped a) ∧
  (∀ (s : State) (k a : Nat) (b : Byte × Bool),
    (k < 2048 → s.coreServed k = false → coreBase k ≤ a → a < coreBase k + 0x100000 → s.byte a = (0#8, false) ∧ s.write a [b] = s) ∧
    (k < 64 → s.clusterServed k = false → clusterBase k ≤ a → a < clusterBase k + 0x1000000 → s.byte a = (0#8, false) ∧ s.write a [b] = s))
end

