-- ==== Sys2Proof/Laws/Parts.lean ====
section
/-! SUPPORT. What taking parts of one state into another leaves: nothing else differs. -/

set_option Elab.async false

namespace Sys2Proof.Machine

theorem Only.refl (ps : List Part) (s : State) : Only ps s s := by
  intro p _; cases p <;> simp [Part.same]

theorem Part.same_trans {s t u : State} {p : Part} (h : p.same s t) (k : p.same t u) : p.same s u := by
  cases p <;> simp_all [Part.same]

theorem Only.trans {ps : List Part} {s t u : State} (h : Only ps s t) (k : Only ps t u) : Only ps s u :=
  fun p hp => Part.same_trans (h p hp) (k p hp)

theorem Only.mono {ps qs : List Part} {s t : State} (h : Only ps s t) (sub : ∀ p ∈ ps, p ∈ qs) : Only qs s t :=
  fun p hp => h p fun q => hp (sub p q)

/-- Only the parts named differ after they are taken. -/
theorem State.take_only (s t : State) (ps : List Part) : Only ps s (s.take t ps) := by
  intro p hp
  cases p <;> simp [Part.same, State.take, hp]

/-- A value taken where a part is named, and kept otherwise, is the new one where nothing else differs. -/
theorem if_taken {α : Type} {c : Prop} [Decidable c] {x y : α} (h : ¬ c → x = y) : (if c then x else y) = x := by
  split
  · rfl
  · next n => exact (h n).symm

/-- Taking every part that differs gives the other state. -/
theorem State.take_eq {s t : State} {ps : List Part} (h : Only ps s t) : s.take t ps = t := by
  unfold State.take
  rw [if_taken (x := t.sys) fun c => (h .sys c),
    if_taken (x := t.fuses) fun c => (h .fuses c),
    if_taken (x := t.mem) fun c => (h .mem c).1,
    if_taken (x := t.ecc) fun c => (h .mem c).2,
    if_taken (x := t.localGib) fun c => (h .place c),
    if_taken (x := t.ddrBytes) fun c => (h .tier c).1,
    if_taken (x := t.ddrSet) fun c => (h .tier c).2,
    if_taken (x := t.fp) fun c => (h .fp c),
    if_taken (x := t.plan) fun c => (h .plan c),
    if_taken (x := t.job) fun c => (h .job c),
    if_taken (x := t.gate) fun c => (h .gate c),
    if_taken (x := t.falsework) fun c => (h .falsework c),
    if_taken (x := t.streams) fun c => (h .streams c),
    if_taken (x := t.arrays) fun c => (h .arrays c),
    if_taken (x := t.trestle) fun c => (h .trestle c),
    if_taken (x := t.layers) fun c => (h .layers c),
    if_taken (x := t.ctr) fun c => (h .ctr c),
    if_taken (x := t.pages) fun c => (h .pages c),
    if_taken (x := t.kernels) fun c => (h .kernels c),
    if_taken (x := t.routes) fun c => (h .routes c),
    if_taken (x := t.net) fun c => (h .net c),
    if_taken (x := t.coll) fun c => (h .coll c),
    if_taken (x := t.host) fun c => (h .host c),
    if_taken (x := t.fw) fun c => (h .fw c),
    if_taken (x := t.trace) fun c => (h .trace c),
    if_taken (x := t.age) fun c => (h .age c),
    if_taken (x := t.clamps) fun c => (h .clamps c),
    if_taken (x := t.debugMode) fun c => (h .debug c),
    if_taken (x := t.pierId) fun c => (h .pier c),
    if_taken (x := t.aclk) fun c => (h .clock c),
    if_taken (x := t.freeCtr) fun c => (h .free c),
    if_taken (x := t.pending) fun c => (h .queue c)]

end Sys2Proof.Machine
end

