-- ==== Sys2Proof/Laws/Exec.lean ====
section
/-! SUPPORT. The ways a command takes its effect: what each can change. -/

set_option Elab.async false

namespace Sys2Proof.Machine

theorem State.after_only (s t : State) : Only State.afterParts t (s.after t) := State.take_only _ _ _

/-- Every command is one of four kinds: of the running pier, of the host, of pins and sensors, of bring-up. -/
theorem exec_cases (i : Instr) (s : State) :
    (Part.sys ∉ i.writes ∧ Part.fuses ∉ i.writes ∧ ∃ h f, exec i s = s.act i h f) ∨
    (∃ h f, exec i s = s.actHost i h f) ∨
    (∃ f, exec i s = s.actPin i f) ∨
    (Part.sys ∈ i.writes ∧ ∃ h y f, exec i s = s.actBoot i h y f) := by
  cases i
  all_goals simp only [exec, State.actStream, State.actArray, State.actEth, State.actPort, State.actLink, State.actFlit, State.actDeck, State.actReady, State.actCommand, State.actOper,
    execHello, execOpen, execClose, execKeepalive, execSessionIdleTimeout, execNetConfig, execRollCall, execRegionOpen, execRegionClose, execRingSetup, execQpConnect, execFwLoadBegin, execFwLoadData, execFwLoadCommit, execFwReplace, execFwReplacePeriodsOnly, execFwReplaceProbationEnd, execWearlogRead, execWearlogHandBack, execPlanLoad, execPlanUpdate, execPlanUnload, execDescWrite, execJobStart, execJobStartTimeout, execJobAssign, execSpanCreate, execSpanDelete, execSlotWrite, execSyncSignal, execSyncWait, execSyncWaitTimeout, execFloorplanRead, execCounterRead, execClampRead, execStatusQuery, execPoisonRead, execAbort, execDrainDetach, execRetireUnit, execSnapshotTake, execSnapshotRead, execSnapshotRelease, execSnapshotTraceRead, execTraceCtlSample, execTraceCtlTrace, execTraceCtlTrigger, execTraceCtlStop, execTraceCtlStatus, execDebugMode, execMatmul, execAttnFwd, execAttnBwd, execRmsnorm, execRmsnormBwd, execLayernorm, execLayernormBwd, execSoftmax, execSoftmaxBwd, execXent, execOpRoute, execOpCombine, execOpCombineBwd, execOpRouteBwd, execEmbed, execEmbedBwd, execConvert, execInit, execCollective, execUpdate, execCopyRefresh, execFwWrite, execFwRestore, execReshard, execReshardStageBarrier, execReshardInstallBarrier, execSqTailWrite, execRingEntry, execRdmaWrite, execRdmaRead, execRdmaInvalidRequest, execCnpReceived, execRateRestore, execEthUnsupported, execIcmpEcho, execNeighbourDiscovery, execDhcpReply, execEthTrainingTurn, execEthPortDown, execPwrEnRise, execPwrEnFall, execVinUndervoltage, execVinDip, execResetNFall, execResetNRise, execStartUpTestDone, execMemoryTrainingDone, execMemoryTestDone, execComputeResetNFall, execComputeResetNRise, execRejoinTimeout, execRootPllLossOfLock, execPowerSample, execJunctionSample, execThermalTrip, execLaneLockLoss, execSymbolRateCheck, execEyeMarginCheck, execPortTrainingRetry, execFlitIdent, execFlitIdle, execFlitWrite, execFlitReadReq, execFlitSignal, execFlitColl, execFlitCtrl, execFlitRetryReq, execRetryReqRepeat, execAckTimer, execRetryExhausted, execQuietIntervalExpiry, execStepBegin, execTprod, execTbprod, execLend, execAccumulationComplete, execDrainStart, execDrainComplete, execVrun, execAttentionKernel, execRoute, execCombine, execCombineBwd, execRouteBwd, execQamax, execQchamax, execQconv, execMcopy, execMfill, execMbankread, execSwait, execSadd, execSset, execSspan, execLoop, execLoopm, execEndloop, execFence, execGate, execEnd, execBridx, execMark, execUp1, execUp2, execUcopy, execInstructionCompletion, execTrestleJob, execCollectiveEntryStart, execExpertRowsLanded, execCollectiveComplete, execHangIntervalExpiry, execVote, execGateDecide, execVoteTimeout, execGateResult, execCopiesVerified, execGenerationLocalWritten, execBuddyShardLands, execFwHoldRelease, execPagePartWrite, execPagePartRead, execLease, execRelease, execClear, execSpillLands, execFetchLands, execPatrolScrub, execWatchdogExpiry, execSampleTick, execTraceFrozen, execRoReading, execAgeingDailySample, execVinWithinOperatingRange, execEthLinkUp, execFEngineInServiceTest]
  all_goals try split
  all_goals with_reducible first
    | exact .inl ⟨by simp [Instr.writes], by simp [Instr.writes], _, _, rfl⟩
    | exact .inr (.inl ⟨_, _, rfl⟩)
    | exact .inr (.inr (.inl ⟨_, rfl⟩))
    | exact .inr (.inr (.inr ⟨by simp [Instr.writes], _, _, _, rfl⟩))

end Sys2Proof.Machine
end

