-- ==== Sys2Proof/Laws/Host.lean ====
section
/-! SUPPORT. What a command packet that is run does, and its parameter block's check. -/

set_option Elab.async false

namespace Sys2Proof.Machine

theorem fieldsThen_fits {x : Cmd} {fs : List Field} (h : x.Fits fs) (s : State) (k : State → Ans) :
    x.fieldsThen s fs k = k (s.told x fs) := by
  unfold Cmd.Fits at h
  simp [Cmd.fieldsThen, h, State.told]

theorem fieldsThen_null {x : Cmd} {fs : List Field} (h : ¬ x.Fits fs) (s : State) (k : State → Ans) :
    x.fieldsThen s fs k = { s := s.told x fs, status := ST_CLAMPED } := by
  unfold Cmd.Fits at h
  simp only [Bool.not_eq_false] at h
  simp [Cmd.fieldsThen, h, State.told]

namespace State

theorem takeSeq_session (s : State) (c : HostCmd) (r : Bool) : (s.takeSeq c r).host.session.isSome = s.host.session.isSome := by
  unfold takeSeq; split <;> simp

theorem takeSeq_stageOf (s : State) (c : HostCmd) (r : Bool) (oc x : Nat) : (s.takeSeq c r).stageOf oc x = s.stageOf oc x := by
  have h := s.takeSeq_session c r
  unfold stageOf
  rw [h]
  unfold takeSeq; split <;> rfl

theorem takeSeq_effective (s : State) (c d : HostCmd) (r : Bool) : (s.takeSeq c r).effective d = s.effective d := by
  have h : (s.takeSeq c r).bytes = s.bytes := by
    funext a n
    induction n generalizing a with
    | zero => rfl
    | succ n ih =>
      have b : (s.takeSeq c r).byte a = s.byte a := by unfold takeSeq; split <;> rfl
      simp only [bytes, b, ih]
  simp only [effective, data, h]

/-- A command packet that is run ends in the answer of its body. -/
theorem actCommand_runs {s : State} {oc : Nat} {c : HostCmd} {row : HostCmd → State → Bool} (h : s.Runs oc c) (hr : row c s = true)
    (i : Instr) (body : Cmd → State → Ans) :
    s.actCommand i oc c row body = .next (s.answered i oc c (body (c.seen oc s) (s.begin oc c))) := by
  obtain ⟨h1, h2, h3, h4, h5, h6, h7⟩ := h
  have e : s.accept oc c body = (s.takeSeq c false).runCmd c oc false (headerClamps hostItem c oc) body := by
    have p1 : (s.takeSeq c false).pierId = s.pierId := by unfold takeSeq; split <;> rfl
    have p2 : (s.takeSeq c false).pendingCount = s.pendingCount := by unfold takeSeq; split <;> rfl
    have p3 : (s.takeSeq c false).opened = s.opened := by unfold takeSeq; split <;> rfl
    have hp : (c.pier != 0xFFF && c.pier != s.pierId) = false := by rcases h3 with h | h <;> simp [h]
    have hi : (c.indirect && !(decide (leNat (c.block.take 8) < 2 ^ 48) && s.opened 1 (leNat (c.block.take 8)) c.plen)) = false := by
      cases hc : c.indirect
      · rfl
      · rw [decide_eq_true (h5 hc).1, (h5 hc).2]; rfl
    unfold accept
    rw [h2]
    simp only [dispatch, p1, p2, p3, takeSeq_stageOf, h6]
    change (if _ then _ else _) = _
    have h4' : (headerClamps { kind := 7, index := 0 } c oc).any isNull = false := h4
    simp only [hp, h4', hi, Bool.false_eq_true, if_false, List.isEmpty_nil, Bool.not_true, ge_iff_le, Nat.not_le.mpr h7]
    rfl
  unfold actCommand actHost
  simp only [h1, hr, Bool.and_self, if_true, e]
  unfold runCmd answered
  rw [takeSeq_effective]
  rfl

end State

end Sys2Proof.Machine
end

