-- ==== Sys2Proof/Laws/Memory.lean ====
section
/-! SUPPORT. Memory: reads after writes, what a write leaves alone, and the canonical form. -/

set_option Elab.async false

namespace Sys2Proof.Machine

/-! ### The byte list -/

theorem mget_filter_ne (m : List (Nat × Byte)) (k j : Nat) (h : j ≠ k) : mget (m.filter fun c => c.1 != k) j = mget m j := by
  induction m with
  | nil => rfl
  | cons c r ih =>
    obtain ⟨a, b⟩ := c
    by_cases e : a = k
    · subst e; simp [mget, ih, Ne.symm h]
    · simp [e, mget, ih]

theorem mget_filter_eq (m : List (Nat × Byte)) (k : Nat) : mget (m.filter fun c => c.1 != k) k = Memory.unlisted := by
  induction m with
  | nil => rfl
  | cons c r ih =>
    obtain ⟨a, b⟩ := c
    by_cases e : a = k <;> simp [e, mget, ih]

theorem mget_minsert_ne (m : List (Nat × Byte)) (k j : Nat) (v : Byte) (h : j ≠ k) : mget (minsert m k v) j = mget m j := by
  induction m with
  | nil => simp [minsert, mget, Ne.symm h]
  | cons c r ih =>
    obtain ⟨a, b⟩ := c
    unfold minsert
    split <;> simp [mget, ih, Ne.symm h]

theorem mget_minsert_eq (m : List (Nat × Byte)) (k : Nat) (v : Byte) (h : ∀ c ∈ m, c.1 ≠ k) : mget (minsert m k v) k = v := by
  induction m with
  | nil => simp [minsert, mget]
  | cons c r ih =>
    obtain ⟨a, b⟩ := c
    unfold minsert
    split
    · simp [mget]
    · have : a ≠ k := h (a, b) (by simp)
      simp [mget, this, ih fun c hc => h c (by simp [hc])]

/-- A byte put is read. -/
@[simp] theorem mget_mput_eq (m : List (Nat × Byte)) (k : Nat) (v : Byte) : mget (mput m k v) k = v := by
  unfold mput
  split
  · next e => rw [e]; exact mget_filter_eq m k
  · exact mget_minsert_eq _ k v fun c hc => by simpa using (List.mem_filter.mp hc).2

/-- Other bytes are as they were. -/
theorem mget_mput_ne (m : List (Nat × Byte)) (k j : Nat) (v : Byte) (h : j ≠ k) : mget (mput m k v) j = mget m j := by
  unfold mput
  split
  · exact mget_filter_ne m k j h
  · rw [mget_minsert_ne _ _ _ _ h, mget_filter_ne m k j h]

/-! ### The canonical form -/

theorem Memory.wfFrom_mono {m : List (Nat × Byte)} {a b : Nat} (h : Memory.wfFrom b m = true) (l : a ≤ b) : Memory.wfFrom a m = true := by
  cases m with
  | nil => rfl
  | cons c r => simp only [wfFrom, Bool.and_eq_true, decide_eq_true_eq] at *; exact ⟨⟨by omega, h.1.2⟩, h.2⟩

theorem Memory.wfFrom_filter {m : List (Nat × Byte)} {a : Nat} (p : Nat × Byte → Bool) (h : Memory.wfFrom a m = true) :
    Memory.wfFrom a (m.filter p) = true := by
  induction m generalizing a with
  | nil => rfl
  | cons c r ih =>
    simp only [wfFrom, Bool.and_eq_true, decide_eq_true_eq] at h
    by_cases e : p c
    · simp only [List.filter_cons_of_pos e, wfFrom, Bool.and_eq_true, decide_eq_true_eq]
      exact ⟨h.1, ih h.2⟩
    · rw [List.filter_cons_of_neg e]
      exact wfFrom_mono (ih h.2) (by omega)

theorem Memory.wfFrom_minsert {m : List (Nat × Byte)} {a k : Nat} {v : Byte} (h : Memory.wfFrom a m = true) (n : ∀ c ∈ m, c.1 ≠ k)
    (l : a ≤ k) (u : v ≠ Memory.unlisted) : Memory.wfFrom a (minsert m k v) = true := by
  induction m generalizing a with
  | nil => simp [minsert, wfFrom, l, u]
  | cons c r ih =>
    obtain ⟨x, b⟩ := c
    simp only [wfFrom, Bool.and_eq_true, decide_eq_true_eq] at h
    have ne : x ≠ k := n (x, b) (by simp)
    unfold minsert
    split
    · next lt => simp only [wfFrom, Bool.and_eq_true, decide_eq_true_eq]; exact ⟨⟨l, u⟩, ⟨by omega, h.1.2⟩, h.2⟩
    · simp only [wfFrom, Bool.and_eq_true, decide_eq_true_eq]
      exact ⟨h.1, ih h.2 (fun c hc => n c (by simp [hc])) (by omega)⟩

/-- A write keeps the canonical form. -/
theorem Memory.wf_mput {m : List (Nat × Byte)} (h : Memory.wf m = true) (k : Nat) (v : Byte) : Memory.wf (mput m k v) = true := by
  unfold Memory.wf mput at *
  split
  · exact Memory.wfFrom_filter _ h
  · next u => exact Memory.wfFrom_minsert (Memory.wfFrom_filter _ h) (fun c hc => by simpa using (List.mem_filter.mp hc).2) (Nat.zero_le _) u

theorem Memory.wf_filter {m : List (Nat × Byte)} (h : Memory.wf m = true) (p : Nat × Byte → Bool) : Memory.wf (m.filter p) = true :=
  Memory.wfFrom_filter p h

theorem Memory.wf_putWord {m : List (Nat × Byte)} (h : Memory.wf m = true) (k w : Nat) : Memory.wf (putWord m k w) = true := by
  unfold putWord
  exact wf_mput (wf_mput (wf_mput (wf_mput h _ _) _ _) _ _) _ _

/-! ### Words -/

theorem byte_digits (w : Nat) : (BitVec.ofNat 8 w).toNat + 256 * (BitVec.ofNat 8 (w / 256)).toNat + 65536 * (BitVec.ofNat 8 (w / 65536)).toNat
    + 16777216 * (BitVec.ofNat 8 (w / 16777216)).toNat = w % 2 ^ 32 := by
  simp only [BitVec.toNat_ofNat]; omega

theorem rawWord_putWord_eq (m : List (Nat × Byte)) (k w : Nat) : rawWord (putWord m k w) k = w % 2 ^ 32 := by
  rw [← byte_digits w]
  unfold rawWord putWord
  have n1 : k ≠ k + 1 := by omega
  have n2 : k ≠ k + 2 := by omega
  have n3 : k ≠ k + 3 := by omega
  have n4 : k + 1 ≠ k + 2 := by omega
  have n5 : k + 1 ≠ k + 3 := by omega
  have n6 : k + 2 ≠ k + 3 := by omega
  rw [mget_mput_ne _ _ _ _ n3, mget_mput_ne _ _ _ _ n2, mget_mput_ne _ _ _ _ n1, mget_mput_eq,
    mget_mput_ne _ _ _ _ n5, mget_mput_ne _ _ _ _ n4, mget_mput_eq, mget_mput_ne _ _ _ _ n6, mget_mput_eq, mget_mput_eq]

theorem rawWord_putWord_ne (m : List (Nat × Byte)) (k j w : Nat) (h : j + 4 ≤ k ∨ k + 4 ≤ j) : rawWord (putWord m k w) j = rawWord m j := by
  have g : ∀ i < 4, mget (putWord m k w) (j + i) = mget m (j + i) := by
    intro i hi
    unfold putWord
    rw [mget_mput_ne _ _ _ _ (by omega), mget_mput_ne _ _ _ _ (by omega), mget_mput_ne _ _ _ _ (by omega), mget_mput_ne _ _ _ _ (by omega)]
  unfold rawWord
  have g0 := g 0 (by omega)
  rw [Nat.add_zero] at g0
  rw [g0, g 1 (by omega), g 2 (by omega), g 3 (by omega)]

theorem syndromeOf_clean : syndromeOf 0#8 = .clean := by decide

theorem syndromeOf_poison : syndromeOf eccPoison = .clean := by decide

/-- A unit written is read, with its poison. -/
theorem deliver_put_eq (m e : List (Nat × Byte)) (k w : Nat) (p : Bool) :
    deliver (putWord m k w) (mput e k (if p then eccPoison else 0#8)) k = (BitVec.ofNat 32 w, p) := by
  unfold deliver
  have h : BitVec.ofNat 32 (w % 2 ^ 32) = BitVec.ofNat 32 w := by
    apply BitVec.eq_of_toNat_eq; simp
  cases p
  · simp only [mget_mput_eq, rawWord_putWord_eq, Bool.false_eq_true, if_false, syndromeOf_clean, h]; rfl
  · simp only [mget_mput_eq, rawWord_putWord_eq, if_true, syndromeOf_poison, h]; rfl

theorem deliver_put_ne (m e : List (Nat × Byte)) (k j w : Nat) (x : Byte) (h : j + 4 ≤ k ∨ k + 4 ≤ j) :
    deliver (putWord m k w) (mput e k x) j = deliver m e j := by
  unfold deliver
  rw [mget_mput_ne _ _ _ _ (by omega), rawWord_putWord_ne _ _ _ _ h]

/-! ### Placement -/

theorem mul_div_mod_eq {a b q r : Nat} (h : r < b) (e : a = q * b + r) : a / b = q ∧ a % b = r := by
  subst e
  constructor
  · rw [Nat.mul_comm, Nat.mul_add_div (by omega), Nat.div_eq_of_lt h, Nat.add_zero]
  · rw [Nat.mul_comm, Nat.mul_add_mod, Nat.mod_eq_of_lt h]

theorem div_lt_twelve (a n : Nat) (h : a < n * 12) : a / n < 12 := Nat.div_lt_of_lt_mul h

/-- A stack's bytes stay in the stack. -/
theorem hbmPlace_bounds (L a : Nat) (h : a < HBM_END) : (hbmPlace L a).1 < 12 ∧ (hbmPlace L a).2 < STACK := by
  unfold hbmPlace
  have hl : min L 47 ≤ 47 := Nat.min_le_right _ _
  generalize min L 47 = l at *
  simp only [HBM_END, STACK, GiB] at *
  split
  · next lt =>
    have pos : 0 < l * 0x40000000 := by
      rcases Nat.eq_zero_or_pos (l * 0x40000000) with z | z
      · omega
      · exact z
    refine ⟨?_, ?_⟩
    · exact div_lt_twelve a (l * 0x40000000) (by omega)
    · exact Nat.lt_of_lt_of_le (Nat.mod_lt _ pos) (by omega)
  · next ge =>
    refine ⟨Nat.mod_lt _ (by omega), ?_⟩
    simp only
    omega

/-- The address of a place is the address it was placed from. -/
theorem hbmAddr_hbmPlace (L a : Nat) : hbmAddr L (hbmPlace L a).1 (hbmPlace L a).2 = a := by
  unfold hbmAddr hbmPlace
  generalize min L 47 = l
  simp only [GiB]
  by_cases lt : a < 12 * l * 0x40000000
  · have pos : 0 < l * 0x40000000 := by omega
    simp only [lt, if_true, Nat.mod_lt _ pos]
    exact Nat.div_add_mod' _ _
  · simp only [lt, if_false]
    have n : ¬ (l * 0x40000000 + (a - 12 * l * 0x40000000) / 4096 / 12 * 4096 + a % 4096 < l * 0x40000000) := by omega
    simp only [n, if_false]
    omega

theorem addrOf_keyOf (L a : Nat) : addrOf L (keyOf L a) = a := by
  unfold addrOf keyOf
  split
  · next h =>
    have b := hbmPlace_bounds L a h
    have e := hbmAddr_hbmPlace L a
    generalize hbmPlace L a = p at b e
    simp only [HBM_END, STACK, GiB] at *
    have d := mul_div_mod_eq (q := p.1) b.2 rfl
    have lt : p.1 * (48 * 0x40000000) + p.2 < 12 * (48 * 0x40000000) := by omega
    simp only [lt, if_true, d.1, d.2, e]
  · rfl

/-- Two addresses have one key only where they are the same. -/
theorem keyOf_inj {L a b : Nat} (h : keyOf L a = keyOf L b) : a = b := by
  rw [← addrOf_keyOf L a, ← addrOf_keyOf L b, h]

/-- A word's key is a multiple of four. -/
theorem keyOf_aligned (L a : Nat) (h : a % 4 = 0) : keyOf L a % 4 = 0 := by
  unfold keyOf hbmPlace
  generalize min L 47 = l
  split
  · simp only [STACK, GiB]
    split
    · have d := Nat.div_add_mod a (l * 0x40000000)
      have m : (l * 0x40000000 * (a / (l * 0x40000000))) % 4 = 0 := by
        rw [Nat.mul_assoc, Nat.mul_comm l, Nat.mul_assoc]; omega
      omega
    · simp only; omega
  · exact h

/-- Keys of different words lie apart. -/
theorem keyOf_apart {L a b : Nat} (ha : a % 4 = 0) (hb : b % 4 = 0) (h : a ≠ b) : keyOf L b + 4 ≤ keyOf L a ∨ keyOf L a + 4 ≤ keyOf L b := by
  have n : keyOf L a ≠ keyOf L b := fun e => h (keyOf_inj e)
  have xa := keyOf_aligned L a ha
  have xb := keyOf_aligned L b hb
  omega

/-! ### Words and bytes of the pier -/

namespace State

@[simp] theorem setWord_localGib (s : State) (a w : Nat) (p : Bool) : (s.setWord a w p).localGib = s.localGib := rfl

@[simp] theorem setWord_mapped (s : State) (a w : Nat) (p : Bool) (b : Nat) : (s.setWord a w p).mapped b = s.mapped b := rfl

/-- A word written is read. -/
theorem word_setWord_eq (s : State) (a w : Nat) (p : Bool) : (s.setWord a w p).word a = (BitVec.ofNat 32 w, p) := deliver_put_eq _ _ _ _ _

/-- Another word is as it was. -/
theorem word_setWord_ne (s : State) (a b w : Nat) (p : Bool) (ha : a % 4 = 0) (hb : b % 4 = 0) (h : a ≠ b) :
    (s.setWord a w p).word b = s.word b := deliver_put_ne _ _ _ _ _ _ (keyOf_apart ha hb h)

theorem bump_word (s : State) (b : Bank) (i n a : Nat) : (s.bump b i n).word a = s.word a := by unfold bump; split <;> rfl

theorem bump_mapped (s : State) (b : Bank) (i n a : Nat) : (s.bump b i n).mapped a = s.mapped a := by unfold bump; split <;> rfl

theorem writePart_mapped (s : State) (a : Nat) (bs : List (Byte × Bool)) (b : Nat) : (s.writePart a bs).mapped b = s.mapped b := by
  unfold writePart
  simp only
  split
  · rfl
  · split
    · rfl
    · split
      · rw [setWord_mapped, bump_mapped]
      · rfl

/-- A write within one word leaves other words. -/
theorem writePart_word_ne (s : State) (a : Nat) (bs : List (Byte × Bool)) (b : Nat) (hb : b % 4 = 0) (h : a / 4 * 4 ≠ b) :
    (s.writePart a bs).word b = s.word b := by
  have ha : a / 4 * 4 % 4 = 0 := by omega
  unfold writePart
  simp only
  split
  · rfl
  · split
    · exact word_setWord_ne _ _ _ _ _ ha hb h
    · rw [word_setWord_ne _ _ _ _ _ ha hb h]
      split
      · exact bump_word _ _ _ _ _
      · rfl

theorem writeWords_mapped (f : Nat) (s : State) (a : Nat) (bs : List (Byte × Bool)) (b : Nat) : (writeWords f s a bs).mapped b = s.mapped b := by
  induction f generalizing s a bs with
  | zero => cases bs <;> rfl
  | succ f ih =>
    cases bs with
    | nil => rfl
    | cons c cs => simp only [writeWords]; rw [ih, writePart_mapped]

theorem write_mapped (s : State) (a : Nat) (bs : List (Byte × Bool)) (b : Nat) : (s.write a bs).mapped b = s.mapped b := writeWords_mapped _ _ _ _ _

theorem writeWords_word_ne (f : Nat) (s : State) (a : Nat) (bs : List (Byte × Bool)) (b : Nat) (hb : b % 4 = 0)
    (h : b + 4 ≤ a ∨ a + bs.length ≤ b) : (writeWords f s a bs).word b = s.word b := by
  induction f generalizing s a bs with
  | zero => cases bs <;> rfl
  | succ f ih =>
    cases bs with
    | nil => rfl
    | cons c cs =>
      simp only [writeWords]
      have l : (c :: cs).length = cs.length + 1 := rfl
      rw [ih, writePart_word_ne _ _ _ _ hb (by omega)]
      rw [List.length_drop]
      omega

/-- A write leaves every word it does not touch. -/
theorem write_word_ne (s : State) (a : Nat) (bs : List (Byte × Bool)) (b : Nat) (hb : b % 4 = 0)
    (h : b + 4 ≤ a ∨ a + bs.length ≤ b) : (s.write a bs).word b = s.word b := writeWords_word_ne _ _ _ _ _ hb h

/-- A write leaves every byte of a word it does not touch, with its poison. -/
theorem write_byte_ne (s : State) (a : Nat) (bs : List (Byte × Bool)) (b : Nat) (h : b / 4 * 4 + 4 ≤ a ∨ a + bs.length ≤ b / 4 * 4) :
    (s.write a bs).byte b = s.byte b := by
  unfold byte
  rw [write_mapped, write_word_ne _ _ _ _ (by omega) h]

end State

end Sys2Proof.Machine
end

