-- ==== Sys2Proof/Laws/PerInstr.lean ====
section
/-! SUPPORT. Of every command: the queue is not among the parts it can change, and the clock only where it is of pins and sensors. -/

set_option Elab.async false

namespace Sys2Proof.Laws.QueueAndClock

/-- The command itself does not change the queue, nor the clock unless it is of pins and sensors. -/
def Statement (i : Instr) : Prop := Machine.Part.queue ∉ i.writes ∧ (Machine.Part.clock ∈ i.writes → i.ofPins = true)

theorem hello (a0 : HostCmd) : Statement (.hello a0) := by simp [Statement, Instr.writes, Instr.ofPins]
theorem openSession (a0 : HostCmd) : Statement (.openSession a0) := by simp [Statement, Instr.writes, Instr.ofPins]
theorem close (a0 : HostCmd) : Statement (.close a0) := by simp [Statement, Instr.writes, Instr.ofPins]
theorem keepalive (a0 : HostCmd) : Statement (.keepalive a0) := by simp [Statement, Instr.writes, Instr.ofPins]
theorem sessionIdleTimeout : Statement (.sessionIdleTimeout) := by simp [Statement, Instr.writes, Instr.ofPins]
theorem netConfig (a0 : HostCmd) : Statement (.netConfig a0) := by simp [Statement, Instr.writes, Instr.ofPins]
theorem rollCall (a0 : HostCmd) : Statement (.rollCall a0) := by simp [Statement, Instr.writes, Instr.ofPins]
theorem regionOpen (a0 : HostCmd) : Statement (.regionOpen a0) := by simp [Statement, Instr.writes, Instr.ofPins]
theorem regionClose (a0 : HostCmd) : Statement (.regionClose a0) := by simp [Statement, Instr.writes, Instr.ofPins]
theorem ringSetup (a0 : HostCmd) : Statement (.ringSetup a0) := by simp [Statement, Instr.writes, Instr.ofPins]
theorem qpConnect (a0 : HostCmd) : Statement (.qpConnect a0) := by simp [Statement, Instr.writes, Instr.ofPins]
theorem fwLoadBegin (a0 : HostCmd) : Statement (.fwLoadBegin a0) := by simp [Statement, Instr.writes, Instr.ofPins]
theorem fwLoadData (a0 : HostCmd) : Statement (.fwLoadData a0) := by simp [Statement, Instr.writes, Instr.ofPins]
theorem fwLoadCommit (a0 : HostCmd) (a1 : List (Nat × Nat)) : Statement (.fwLoadCommit a0 a1) := by simp [Statement, Instr.writes, Instr.ofPins]
theorem fwReplace (a0 : HostCmd) : Statement (.fwReplace a0) := by simp [Statement, Instr.writes, Instr.ofPins]
theorem fwReplacePeriodsOnly (a0 : HostCmd) : Statement (.fwReplacePeriodsOnly a0) := by simp [Statement, Instr.writes, Instr.ofPins]
theorem fwReplaceProbationEnd : Statement (.fwReplaceProbationEnd) := by simp [Statement, Instr.writes, Instr.ofPins]
theorem wearlogRead (a0 : HostCmd) : Statement (.wearlogRead a0) := by simp [Statement, Instr.writes, Instr.ofPins]
theorem wearlogHandBack (a0 : HostCmd) : Statement (.wearlogHandBack a0) := by simp [Statement, Instr.writes, Instr.ofPins]
theorem planLoad (a0 : HostCmd) : Statement (.planLoad a0) := by simp [Statement, Instr.writes, Instr.ofPins]
theorem planUpdate (a0 : HostCmd) : Statement (.planUpdate a0) := by simp [Statement, Instr.writes, Instr.ofPins]
theorem planUnload (a0 : HostCmd) : Statement (.planUnload a0) := by simp [Statement, Instr.writes, Instr.ofPins]
theorem descWrite (a0 : HostCmd) : Statement (.descWrite a0) := by simp [Statement, Instr.writes, Instr.ofPins]
theorem jobStart (a0 : HostCmd) : Statement (.jobStart a0) := by simp [Statement, Instr.writes, Instr.ofPins]
theorem jobStartTimeout : Statement (.jobStartTimeout) := by simp [Statement, Instr.writes, Instr.ofPins]
theorem jobAssign (a0 : HostCmd) : Statement (.jobAssign a0) := by simp [Statement, Instr.writes, Instr.ofPins]
theorem spanCreate (a0 : HostCmd) : Statement (.spanCreate a0) := by simp [Statement, Instr.writes, Instr.ofPins]
theorem spanDelete (a0 : HostCmd) : Statement (.spanDelete a0) := by simp [Statement, Instr.writes, Instr.ofPins]
theorem slotWrite (a0 : HostCmd) : Statement (.slotWrite a0) := by simp [Statement, Instr.writes, Instr.ofPins]
theorem syncSignal (a0 : HostCmd) : Statement (.syncSignal a0) := by simp [Statement, Instr.writes, Instr.ofPins]
theorem syncWait (a0 : HostCmd) : Statement (.syncWait a0) := by simp [Statement, Instr.writes, Instr.ofPins]
theorem syncWaitTimeout (a0 : Nat) : Statement (.syncWaitTimeout a0) := by simp [Statement, Instr.writes, Instr.ofPins]
theorem floorplanRead (a0 : HostCmd) : Statement (.floorplanRead a0) := by simp [Statement, Instr.writes, Instr.ofPins]
theorem counterRead (a0 : HostCmd) : Statement (.counterRead a0) := by simp [Statement, Instr.writes, Instr.ofPins]
theorem clampRead (a0 : HostCmd) : Statement (.clampRead a0) := by simp [Statement, Instr.writes, Instr.ofPins]
theorem statusQuery (a0 : HostCmd) : Statement (.statusQuery a0) := by simp [Statement, Instr.writes, Instr.ofPins]
theorem poisonRead (a0 : HostCmd) : Statement (.poisonRead a0) := by simp [Statement, Instr.writes, Instr.ofPins]
theorem abort (a0 : HostCmd) : Statement (.abort a0) := by simp [Statement, Instr.writes, Instr.ofPins]
theorem drainDetach (a0 : HostCmd) : Statement (.drainDetach a0) := by simp [Statement, Instr.writes, Instr.ofPins]
theorem retireUnit (a0 : HostCmd) : Statement (.retireUnit a0) := by simp [Statement, Instr.writes, Instr.ofPins]
theorem snapshotTake (a0 : HostCmd) : Statement (.snapshotTake a0) := by simp [Statement, Instr.writes, Instr.ofPins]
theorem snapshotRead (a0 : HostCmd) : Statement (.snapshotRead a0) := by simp [Statement, Instr.writes, Instr.ofPins]
theorem snapshotRelease (a0 : HostCmd) : Statement (.snapshotRelease a0) := by simp [Statement, Instr.writes, Instr.ofPins]
theorem snapshotTraceRead (a0 : HostCmd) : Statement (.snapshotTraceRead a0) := by simp [Statement, Instr.writes, Instr.ofPins]
theorem traceCtlSample (a0 : HostCmd) : Statement (.traceCtlSample a0) := by simp [Statement, Instr.writes, Instr.ofPins]
theorem traceCtlTrace (a0 : HostCmd) : Statement (.traceCtlTrace a0) := by simp [Statement, Instr.writes, Instr.ofPins]
theorem traceCtlTrigger (a0 : HostCmd) : Statement (.traceCtlTrigger a0) := by simp [Statement, Instr.writes, Instr.ofPins]
theorem traceCtlStop (a0 : HostCmd) : Statement (.traceCtlStop a0) := by simp [Statement, Instr.writes, Instr.ofPins]
theorem traceCtlStatus (a0 : HostCmd) : Statement (.traceCtlStatus a0) := by simp [Statement, Instr.writes, Instr.ofPins]
theorem debugMode (a0 : HostCmd) : Statement (.debugMode a0) := by simp [Statement, Instr.writes, Instr.ofPins]
theorem matmul (a0 : HostCmd) : Statement (.matmul a0) := by simp [Statement, Instr.writes, Instr.ofPins]
theorem attnFwd (a0 : HostCmd) : Statement (.attnFwd a0) := by simp [Statement, Instr.writes, Instr.ofPins]
theorem attnBwd (a0 : HostCmd) : Statement (.attnBwd a0) := by simp [Statement, Instr.writes, Instr.ofPins]
theorem rmsnorm (a0 : HostCmd) : Statement (.rmsnorm a0) := by simp [Statement, Instr.writes, Instr.ofPins]
theorem rmsnormBwd (a0 : HostCmd) : Statement (.rmsnormBwd a0) := by simp [Statement, Instr.writes, Instr.ofPins]
theorem layernorm (a0 : HostCmd) : Statement (.layernorm a0) := by simp [Statement, Instr.writes, Instr.ofPins]
theorem layernormBwd (a0 : HostCmd) : Statement (.layernormBwd a0) := by simp [Statement, Instr.writes, Instr.ofPins]
theorem softmax (a0 : HostCmd) : Statement (.softmax a0) := by simp [Statement, Instr.writes, Instr.ofPins]
theorem softmaxBwd (a0 : HostCmd) : Statement (.softmaxBwd a0) := by simp [Statement, Instr.writes, Instr.ofPins]
theorem xent (a0 : HostCmd) : Statement (.xent a0) := by simp [Statement, Instr.writes, Instr.ofPins]
theorem opRoute (a0 : HostCmd) : Statement (.opRoute a0) := by simp [Statement, Instr.writes, Instr.ofPins]
theorem opCombine (a0 : HostCmd) : Statement (.opCombine a0) := by simp [Statement, Instr.writes, Instr.ofPins]
theorem opCombineBwd (a0 : HostCmd) : Statement (.opCombineBwd a0) := by simp [Statement, Instr.writes, Instr.ofPins]
theorem opRouteBwd (a0 : HostCmd) : Statement (.opRouteBwd a0) := by simp [Statement, Instr.writes, Instr.ofPins]
theorem embed (a0 : HostCmd) : Statement (.embed a0) := by simp [Statement, Instr.writes, Instr.ofPins]
theorem embedBwd (a0 : HostCmd) : Statement (.embedBwd a0) := by simp [Statement, Instr.writes, Instr.ofPins]
theorem convert (a0 : HostCmd) : Statement (.convert a0) := by simp [Statement, Instr.writes, Instr.ofPins]
theorem init (a0 : HostCmd) : Statement (.init a0) := by simp [Statement, Instr.writes, Instr.ofPins]
theorem collective (a0 : HostCmd) : Statement (.collective a0) := by simp [Statement, Instr.writes, Instr.ofPins]
theorem update (a0 : HostCmd) : Statement (.update a0) := by simp [Statement, Instr.writes, Instr.ofPins]
theorem copyRefresh (a0 : HostCmd) : Statement (.copyRefresh a0) := by simp [Statement, Instr.writes, Instr.ofPins]
theorem fwWrite (a0 : HostCmd) : Statement (.fwWrite a0) := by simp [Statement, Instr.writes, Instr.ofPins]
theorem fwRestore (a0 : HostCmd) : Statement (.fwRestore a0) := by simp [Statement, Instr.writes, Instr.ofPins]
theorem reshard (a0 : HostCmd) : Statement (.reshard a0) := by simp [Statement, Instr.writes, Instr.ofPins]
theorem reshardStageBarrier : Statement (.reshardStageBarrier) := by simp [Statement, Instr.writes, Instr.ofPins]
theorem reshardInstallBarrier : Statement (.reshardInstallBarrier) := by simp [Statement, Instr.writes, Instr.ofPins]
theorem sqTailWrite (a0 : Nat) : Statement (.sqTailWrite a0) := by simp [Statement, Instr.writes, Instr.ofPins]
theorem ringEntry : Statement (.ringEntry) := by simp [Statement, Instr.writes, Instr.ofPins]
theorem rdmaWrite (a0 : Nat) (a1 : Nat) (a2 : Nat) (a3 : Nat) (a4 : List Byte) : Statement (.rdmaWrite a0 a1 a2 a3 a4) := by simp [Statement, Instr.writes, Instr.ofPins]
theorem rdmaRead (a0 : Nat) (a1 : Nat) (a2 : Nat) (a3 : Nat) (a4 : Nat) : Statement (.rdmaRead a0 a1 a2 a3 a4) := by simp [Statement, Instr.writes, Instr.ofPins]
theorem rdmaInvalidRequest (a0 : Nat) (a1 : Nat) (a2 : Nat) : Statement (.rdmaInvalidRequest a0 a1 a2) := by simp [Statement, Instr.writes, Instr.ofPins]
theorem cnpReceived (a0 : Nat) (a1 : Nat) : Statement (.cnpReceived a0 a1) := by simp [Statement, Instr.writes, Instr.ofPins]
theorem rateRestore (a0 : Nat) (a1 : Nat) : Statement (.rateRestore a0 a1) := by simp [Statement, Instr.writes, Instr.ofPins]
theorem ethUnsupported (a0 : Nat) : Statement (.ethUnsupported a0) := by simp [Statement, Instr.writes, Instr.ofPins]
theorem icmpEcho (a0 : Nat) (a1 : Bool) (a2 : List Byte) : Statement (.icmpEcho a0 a1 a2) := by simp [Statement, Instr.writes, Instr.ofPins]
theorem neighbourDiscovery (a0 : Nat) (a1 : Nat) : Statement (.neighbourDiscovery a0 a1) := by simp [Statement, Instr.writes, Instr.ofPins]
theorem dhcpReply (a0 : Nat) (a1 : Bool) (a2 : Nat) : Statement (.dhcpReply a0 a1 a2) := by simp [Statement, Instr.writes, Instr.ofPins]
theorem ethTrainingTurn (a0 : Nat) : Statement (.ethTrainingTurn a0) := by simp [Statement, Instr.writes, Instr.ofPins]
theorem ethPortDown (a0 : Nat) : Statement (.ethPortDown a0) := by simp [Statement, Instr.writes, Instr.ofPins]
theorem pwrEnRise : Statement (.pwrEnRise) := by simp [Statement, Instr.writes, Instr.ofPins]
theorem pwrEnFall : Statement (.pwrEnFall) := by simp [Statement, Instr.writes, Instr.ofPins]
theorem vinUndervoltage : Statement (.vinUndervoltage) := by simp [Statement, Instr.writes, Instr.ofPins]
theorem vinDip : Statement (.vinDip) := by simp [Statement, Instr.writes, Instr.ofPins]
theorem resetNFall : Statement (.resetNFall) := by simp [Statement, Instr.writes, Instr.ofPins]
theorem resetNRise (a0 : Nat) : Statement (.resetNRise a0) := by simp [Statement, Instr.writes, Instr.ofPins]
theorem startUpTestDone (a0 : List (Nat × Nat)) : Statement (.startUpTestDone a0) := by simp [Statement, Instr.writes, Instr.ofPins]
theorem memoryTrainingDone (a0 : List Nat) (a1 : Nat) : Statement (.memoryTrainingDone a0 a1) := by simp [Statement, Instr.writes, Instr.ofPins]
theorem memoryTestDone (a0 : List Nat) : Statement (.memoryTestDone a0) := by simp [Statement, Instr.writes, Instr.ofPins]
theorem computeResetNFall : Statement (.computeResetNFall) := by simp [Statement, Instr.writes, Instr.ofPins]
theorem computeResetNRise (a0 : List (Nat × Nat)) : Statement (.computeResetNRise a0) := by simp [Statement, Instr.writes, Instr.ofPins]
theorem rejoinTimeout (a0 : Nat) : Statement (.rejoinTimeout a0) := by simp [Statement, Instr.writes, Instr.ofPins]
theorem rootPllLossOfLock (a0 : Nat) : Statement (.rootPllLossOfLock a0) := by simp [Statement, Instr.writes, Instr.ofPins]
theorem powerSample (a0 : Nat) : Statement (.powerSample a0) := by simp [Statement, Instr.writes, Instr.ofPins]
theorem junctionSample (a0 : Nat) (a1 : Nat) (a2 : Nat) : Statement (.junctionSample a0 a1 a2) := by simp [Statement, Instr.writes, Instr.ofPins]
theorem thermalTrip : Statement (.thermalTrip) := by simp [Statement, Instr.writes, Instr.ofPins]
theorem laneLockLoss (a0 : Nat) (a1 : Nat) : Statement (.laneLockLoss a0 a1) := by simp [Statement, Instr.writes, Instr.ofPins]
theorem symbolRateCheck (a0 : Nat) (a1 : Nat) (a2 : Nat) (a3 : Nat) : Statement (.symbolRateCheck a0 a1 a2 a3) := by simp [Statement, Instr.writes, Instr.ofPins]
theorem eyeMarginCheck (a0 : List (Nat × Nat × Nat)) : Statement (.eyeMarginCheck a0) := by simp [Statement, Instr.writes, Instr.ofPins]
theorem portTrainingRetry (a0 : Nat) : Statement (.portTrainingRetry a0) := by simp [Statement, Instr.writes, Instr.ofPins]
theorem flitIdent (a0 : Nat) (a1 : Flit) : Statement (.flitIdent a0 a1) := by simp [Statement, Instr.writes, Instr.ofPins]
theorem flitIdle (a0 : Nat) (a1 : Flit) : Statement (.flitIdle a0 a1) := by simp [Statement, Instr.writes, Instr.ofPins]
theorem flitWrite (a0 : Nat) (a1 : Flit) : Statement (.flitWrite a0 a1) := by simp [Statement, Instr.writes, Instr.ofPins]
theorem flitReadReq (a0 : Nat) (a1 : Flit) : Statement (.flitReadReq a0 a1) := by simp [Statement, Instr.writes, Instr.ofPins]
theorem flitSignal (a0 : Nat) (a1 : Flit) : Statement (.flitSignal a0 a1) := by simp [Statement, Instr.writes, Instr.ofPins]
theorem flitColl (a0 : Nat) (a1 : Flit) : Statement (.flitColl a0 a1) := by simp [Statement, Instr.writes, Instr.ofPins]
theorem flitCtrl (a0 : Nat) (a1 : Flit) : Statement (.flitCtrl a0 a1) := by simp [Statement, Instr.writes, Instr.ofPins]
theorem flitRetryReq (a0 : Nat) (a1 : Flit) : Statement (.flitRetryReq a0 a1) := by simp [Statement, Instr.writes, Instr.ofPins]
theorem retryReqRepeat (a0 : Nat) : Statement (.retryReqRepeat a0) := by simp [Statement, Instr.writes, Instr.ofPins]
theorem ackTimer (a0 : Nat) : Statement (.ackTimer a0) := by simp [Statement, Instr.writes, Instr.ofPins]
theorem retryExhausted (a0 : Nat) : Statement (.retryExhausted a0) := by simp [Statement, Instr.writes, Instr.ofPins]
theorem quietIntervalExpiry : Statement (.quietIntervalExpiry) := by simp [Statement, Instr.writes, Instr.ofPins]
theorem stepBegin (a0 : SRef) : Statement (.stepBegin a0) := by simp [Statement, Instr.writes, Instr.ofPins]
theorem tprod (a0 : SRef) : Statement (.tprod a0) := by simp [Statement, Instr.writes, Instr.ofPins]
theorem tbprod (a0 : SRef) : Statement (.tbprod a0) := by simp [Statement, Instr.writes, Instr.ofPins]
theorem lend (a0 : Nat) : Statement (.lend a0) := by simp [Statement, Instr.writes, Instr.ofPins]
theorem accumulationComplete (a0 : Nat) (a1 : Machine.Arr) : Statement (.accumulationComplete a0 a1) := by simp [Statement, Instr.writes, Instr.ofPins]
theorem drainStart (a0 : Nat) (a1 : Machine.Arr) : Statement (.drainStart a0 a1) := by simp [Statement, Instr.writes, Instr.ofPins]
theorem drainComplete (a0 : Nat) (a1 : Machine.Arr) : Statement (.drainComplete a0 a1) := by simp [Statement, Instr.writes, Instr.ofPins]
theorem vrun (a0 : SRef) : Statement (.vrun a0) := by simp [Statement, Instr.writes, Instr.ofPins]
theorem attentionKernel (a0 : SRef) : Statement (.attentionKernel a0) := by simp [Statement, Instr.writes, Instr.ofPins]
theorem route (a0 : SRef) : Statement (.route a0) := by simp [Statement, Instr.writes, Instr.ofPins]
theorem combine (a0 : SRef) : Statement (.combine a0) := by simp [Statement, Instr.writes, Instr.ofPins]
theorem combineBwd (a0 : SRef) : Statement (.combineBwd a0) := by simp [Statement, Instr.writes, Instr.ofPins]
theorem routeBwd (a0 : SRef) : Statement (.routeBwd a0) := by simp [Statement, Instr.writes, Instr.ofPins]
theorem qamax (a0 : SRef) : Statement (.qamax a0) := by simp [Statement, Instr.writes, Instr.ofPins]
theorem qchamax (a0 : SRef) : Statement (.qchamax a0) := by simp [Statement, Instr.writes, Instr.ofPins]
theorem qconv (a0 : SRef) : Statement (.qconv a0) := by simp [Statement, Instr.writes, Instr.ofPins]
theorem mcopy (a0 : SRef) : Statement (.mcopy a0) := by simp [Statement, Instr.writes, Instr.ofPins]
theorem mfill (a0 : SRef) : Statement (.mfill a0) := by simp [Statement, Instr.writes, Instr.ofPins]
theorem mbankread (a0 : SRef) : Statement (.mbankread a0) := by simp [Statement, Instr.writes, Instr.ofPins]
theorem swait (a0 : SRef) : Statement (.swait a0) := by simp [Statement, Instr.writes, Instr.ofPins]
theorem sadd (a0 : SRef) : Statement (.sadd a0) := by simp [Statement, Instr.writes, Instr.ofPins]
theorem sset (a0 : SRef) : Statement (.sset a0) := by simp [Statement, Instr.writes, Instr.ofPins]
theorem sspan (a0 : SRef) : Statement (.sspan a0) := by simp [Statement, Instr.writes, Instr.ofPins]
theorem loop (a0 : SRef) : Statement (.loop a0) := by simp [Statement, Instr.writes, Instr.ofPins]
theorem loopm (a0 : SRef) : Statement (.loopm a0) := by simp [Statement, Instr.writes, Instr.ofPins]
theorem endloop (a0 : SRef) : Statement (.endloop a0) := by simp [Statement, Instr.writes, Instr.ofPins]
theorem fence (a0 : SRef) : Statement (.fence a0) := by simp [Statement, Instr.writes, Instr.ofPins]
theorem gate (a0 : SRef) : Statement (.gate a0) := by simp [Statement, Instr.writes, Instr.ofPins]
theorem end_ (a0 : SRef) : Statement (.end_ a0) := by simp [Statement, Instr.writes, Instr.ofPins]
theorem bridx (a0 : SRef) : Statement (.bridx a0) := by simp [Statement, Instr.writes, Instr.ofPins]
theorem mark (a0 : SRef) : Statement (.mark a0) := by simp [Statement, Instr.writes, Instr.ofPins]
theorem up1 (a0 : SRef) : Statement (.up1 a0) := by simp [Statement, Instr.writes, Instr.ofPins]
theorem up2 (a0 : SRef) : Statement (.up2 a0) := by simp [Statement, Instr.writes, Instr.ofPins]
theorem ucopy (a0 : SRef) : Statement (.ucopy a0) := by simp [Statement, Instr.writes, Instr.ofPins]
theorem instructionCompletion (a0 : SRef) (a1 : Nat) : Statement (.instructionCompletion a0 a1) := by simp [Statement, Instr.writes, Instr.ofPins]
theorem trestleJob (a0 : Nat) : Statement (.trestleJob a0) := by simp [Statement, Instr.writes, Instr.ofPins]
theorem collectiveEntryStart : Statement (.collectiveEntryStart) := by simp [Statement, Instr.writes, Instr.ofPins]
theorem expertRowsLanded (a0 : Nat) (a1 : Nat) : Statement (.expertRowsLanded a0 a1) := by simp [Statement, Instr.writes, Instr.ofPins]
theorem collectiveComplete (a0 : Nat) : Statement (.collectiveComplete a0) := by simp [Statement, Instr.writes, Instr.ofPins]
theorem hangIntervalExpiry (a0 : SRef) : Statement (.hangIntervalExpiry a0) := by simp [Statement, Instr.writes, Instr.ofPins]
theorem vote : Statement (.vote) := by simp [Statement, Instr.writes, Instr.ofPins]
theorem gateDecide : Statement (.gateDecide) := by simp [Statement, Instr.writes, Instr.ofPins]
theorem voteTimeout : Statement (.voteTimeout) := by simp [Statement, Instr.writes, Instr.ofPins]
theorem gateResult : Statement (.gateResult) := by simp [Statement, Instr.writes, Instr.ofPins]
theorem copiesVerified : Statement (.copiesVerified) := by simp [Statement, Instr.writes, Instr.ofPins]
theorem generationLocalWritten : Statement (.generationLocalWritten) := by simp [Statement, Instr.writes, Instr.ofPins]
theorem buddyShardLands (a0 : Nat) : Statement (.buddyShardLands a0) := by simp [Statement, Instr.writes, Instr.ofPins]
theorem fwHoldRelease (a0 : Nat) : Statement (.fwHoldRelease a0) := by simp [Statement, Instr.writes, Instr.ofPins]
theorem pagePartWrite (a0 : PagePart) : Statement (.pagePartWrite a0) := by simp [Statement, Instr.writes, Instr.ofPins]
theorem pagePartRead (a0 : PagePart) : Statement (.pagePartRead a0) := by simp [Statement, Instr.writes, Instr.ofPins]
theorem lease (a0 : Nat) (a1 : Nat) : Statement (.lease a0 a1) := by simp [Statement, Instr.writes, Instr.ofPins]
theorem release (a0 : Nat) : Statement (.release a0) := by simp [Statement, Instr.writes, Instr.ofPins]
theorem clear (a0 : Nat) : Statement (.clear a0) := by simp [Statement, Instr.writes, Instr.ofPins]
theorem spillLands (a0 : Nat) : Statement (.spillLands a0) := by simp [Statement, Instr.writes, Instr.ofPins]
theorem fetchLands (a0 : Nat) : Statement (.fetchLands a0) := by simp [Statement, Instr.writes, Instr.ofPins]
theorem patrolScrub (a0 : Nat) : Statement (.patrolScrub a0) := by simp [Statement, Instr.writes, Instr.ofPins]
theorem watchdogExpiry (a0 : Nat) (a1 : Nat) : Statement (.watchdogExpiry a0 a1) := by simp [Statement, Instr.writes, Instr.ofPins]
theorem sampleTick : Statement (.sampleTick) := by simp [Statement, Instr.writes, Instr.ofPins]
theorem traceFrozen (a0 : Nat) : Statement (.traceFrozen a0) := by simp [Statement, Instr.writes, Instr.ofPins]
theorem roReading (a0 : Nat) (a1 : Nat) : Statement (.roReading a0 a1) := by simp [Statement, Instr.writes, Instr.ofPins]
theorem ageingDailySample : Statement (.ageingDailySample) := by simp [Statement, Instr.writes, Instr.ofPins]
theorem vinWithinOperatingRange : Statement (.vinWithinOperatingRange) := by simp [Statement, Instr.writes, Instr.ofPins]
theorem ethLinkUp (a0 : Nat) : Statement (.ethLinkUp a0) := by simp [Statement, Instr.writes, Instr.ofPins]
theorem fEngineInServiceTest (a0 : Nat) (a1 : Bool) : Statement (.fEngineInServiceTest a0 a1) := by simp [Statement, Instr.writes, Instr.ofPins]

end Sys2Proof.Laws.QueueAndClock
end

