-- ==== Sys2Proof/Laws/State.lean ====
section
/-! SUPPORT. The fields of a state after each plain update, and the canonical form of memory under every operation on it. -/

set_option Elab.async false

namespace Sys2Proof.Machine.State

/-! ### setWord -/

@[simp] theorem setWord_sys (s : State) (a w : Nat) (p : Bool) : (s.setWord a w p).sys = s.sys := rfl
@[simp] theorem setWord_fuses (s : State) (a w : Nat) (p : Bool) : (s.setWord a w p).fuses = s.fuses := rfl
@[simp] theorem setWord_mem (s : State) (a w : Nat) (p : Bool) : (s.setWord a w p).mem = Sys2Proof.Machine.putWord s.mem (keyOf s.localGib a) w := rfl
@[simp] theorem setWord_ecc (s : State) (a w : Nat) (p : Bool) : (s.setWord a w p).ecc = mput s.ecc (keyOf s.localGib a) (if p then eccPoison else 0#8) := rfl
@[simp] theorem setWord_ddrBytes (s : State) (a w : Nat) (p : Bool) : (s.setWord a w p).ddrBytes = s.ddrBytes := rfl
@[simp] theorem setWord_ddrSet (s : State) (a w : Nat) (p : Bool) : (s.setWord a w p).ddrSet = s.ddrSet := rfl
@[simp] theorem setWord_fp (s : State) (a w : Nat) (p : Bool) : (s.setWord a w p).fp = s.fp := rfl
@[simp] theorem setWord_plan (s : State) (a w : Nat) (p : Bool) : (s.setWord a w p).plan = s.plan := rfl
@[simp] theorem setWord_job (s : State) (a w : Nat) (p : Bool) : (s.setWord a w p).job = s.job := rfl
@[simp] theorem setWord_falsework (s : State) (a w : Nat) (p : Bool) : (s.setWord a w p).falsework = s.falsework := rfl
@[simp] theorem setWord_streams (s : State) (a w : Nat) (p : Bool) : (s.setWord a w p).streams = s.streams := rfl
@[simp] theorem setWord_arrays (s : State) (a w : Nat) (p : Bool) : (s.setWord a w p).arrays = s.arrays := rfl
@[simp] theorem setWord_trestle (s : State) (a w : Nat) (p : Bool) : (s.setWord a w p).trestle = s.trestle := rfl
@[simp] theorem setWord_layers (s : State) (a w : Nat) (p : Bool) : (s.setWord a w p).layers = s.layers := rfl
@[simp] theorem setWord_ctr (s : State) (a w : Nat) (p : Bool) : (s.setWord a w p).ctr = s.ctr := rfl
@[simp] theorem setWord_pages (s : State) (a w : Nat) (p : Bool) : (s.setWord a w p).pages = s.pages := rfl
@[simp] theorem setWord_kernels (s : State) (a w : Nat) (p : Bool) : (s.setWord a w p).kernels = s.kernels := rfl
@[simp] theorem setWord_routes (s : State) (a w : Nat) (p : Bool) : (s.setWord a w p).routes = s.routes := rfl
@[simp] theorem setWord_net (s : State) (a w : Nat) (p : Bool) : (s.setWord a w p).net = s.net := rfl
@[simp] theorem setWord_coll (s : State) (a w : Nat) (p : Bool) : (s.setWord a w p).coll = s.coll := rfl
@[simp] theorem setWord_host (s : State) (a w : Nat) (p : Bool) : (s.setWord a w p).host = s.host := rfl
@[simp] theorem setWord_fw (s : State) (a w : Nat) (p : Bool) : (s.setWord a w p).fw = s.fw := rfl
@[simp] theorem setWord_trace (s : State) (a w : Nat) (p : Bool) : (s.setWord a w p).trace = s.trace := rfl
@[simp] theorem setWord_age (s : State) (a w : Nat) (p : Bool) : (s.setWord a w p).age = s.age := rfl
@[simp] theorem setWord_clamps (s : State) (a w : Nat) (p : Bool) : (s.setWord a w p).clamps = s.clamps := rfl
@[simp] theorem setWord_debugMode (s : State) (a w : Nat) (p : Bool) : (s.setWord a w p).debugMode = s.debugMode := rfl
@[simp] theorem setWord_pierId (s : State) (a w : Nat) (p : Bool) : (s.setWord a w p).pierId = s.pierId := rfl
@[simp] theorem setWord_aclk (s : State) (a w : Nat) (p : Bool) : (s.setWord a w p).aclk = s.aclk := rfl
@[simp] theorem setWord_freeCtr (s : State) (a w : Nat) (p : Bool) : (s.setWord a w p).freeCtr = s.freeCtr := rfl
@[simp] theorem setWord_pending (s : State) (a w : Nat) (p : Bool) : (s.setWord a w p).pending = s.pending := rfl

/-! ### emptyRange -/

@[simp] theorem emptyRange_sys (s : State) (a n : Nat) : (s.emptyRange a n).sys = s.sys := rfl
@[simp] theorem emptyRange_fuses (s : State) (a n : Nat) : (s.emptyRange a n).fuses = s.fuses := rfl
@[simp] theorem emptyRange_localGib (s : State) (a n : Nat) : (s.emptyRange a n).localGib = s.localGib := rfl
@[simp] theorem emptyRange_ddrBytes (s : State) (a n : Nat) : (s.emptyRange a n).ddrBytes = s.ddrBytes := rfl
@[simp] theorem emptyRange_ddrSet (s : State) (a n : Nat) : (s.emptyRange a n).ddrSet = s.ddrSet := rfl
@[simp] theorem emptyRange_fp (s : State) (a n : Nat) : (s.emptyRange a n).fp = s.fp := rfl
@[simp] theorem emptyRange_plan (s : State) (a n : Nat) : (s.emptyRange a n).plan = s.plan := rfl
@[simp] theorem emptyRange_job (s : State) (a n : Nat) : (s.emptyRange a n).job = s.job := rfl
@[simp] theorem emptyRange_gate (s : State) (a n : Nat) : (s.emptyRange a n).gate = s.gate := rfl
@[simp] theorem emptyRange_falsework (s : State) (a n : Nat) : (s.emptyRange a n).falsework = s.falsework := rfl
@[simp] theorem emptyRange_streams (s : State) (a n : Nat) : (s.emptyRange a n).streams = s.streams := rfl
@[simp] theorem emptyRange_arrays (s : State) (a n : Nat) : (s.emptyRange a n).arrays = s.arrays := rfl
@[simp] theorem emptyRange_trestle (s : State) (a n : Nat) : (s.emptyRange a n).trestle = s.trestle := rfl
@[simp] theorem emptyRange_layers (s : State) (a n : Nat) : (s.emptyRange a n).layers = s.layers := rfl
@[simp] theorem emptyRange_ctr (s : State) (a n : Nat) : (s.emptyRange a n).ctr = s.ctr := rfl
@[simp] theorem emptyRange_pages (s : State) (a n : Nat) : (s.emptyRange a n).pages = s.pages := rfl
@[simp] theorem emptyRange_kernels (s : State) (a n : Nat) : (s.emptyRange a n).kernels = s.kernels := rfl
@[simp] theorem emptyRange_routes (s : State) (a n : Nat) : (s.emptyRange a n).routes = s.routes := rfl
@[simp] theorem emptyRange_net (s : State) (a n : Nat) : (s.emptyRange a n).net = s.net := rfl
@[simp] theorem emptyRange_coll (s : State) (a n : Nat) : (s.emptyRange a n).coll = s.coll := rfl
@[simp] theorem emptyRange_host (s : State) (a n : Nat) : (s.emptyRange a n).host = s.host := rfl
@[simp] theorem emptyRange_fw (s : State) (a n : Nat) : (s.emptyRange a n).fw = s.fw := rfl
@[simp] theorem emptyRange_trace (s : State) (a n : Nat) : (s.emptyRange a n).trace = s.trace := rfl
@[simp] theorem emptyRange_age (s : State) (a n : Nat) : (s.emptyRange a n).age = s.age := rfl
@[simp] theorem emptyRange_clamps (s : State) (a n : Nat) : (s.emptyRange a n).clamps = s.clamps := rfl
@[simp] theorem emptyRange_debugMode (s : State) (a n : Nat) : (s.emptyRange a n).debugMode = s.debugMode := rfl
@[simp] theorem emptyRange_pierId (s : State) (a n : Nat) : (s.emptyRange a n).pierId = s.pierId := rfl
@[simp] theorem emptyRange_aclk (s : State) (a n : Nat) : (s.emptyRange a n).aclk = s.aclk := rfl
@[simp] theorem emptyRange_freeCtr (s : State) (a n : Nat) : (s.emptyRange a n).freeCtr = s.freeCtr := rfl
@[simp] theorem emptyRange_pending (s : State) (a n : Nat) : (s.emptyRange a n).pending = s.pending := rfl

/-! ### clearRange -/

@[simp] theorem clearRange_sys (s : State) (a n : Nat) : (s.clearRange a n).sys = s.sys := rfl
@[simp] theorem clearRange_fuses (s : State) (a n : Nat) : (s.clearRange a n).fuses = s.fuses := rfl
@[simp] theorem clearRange_localGib (s : State) (a n : Nat) : (s.clearRange a n).localGib = s.localGib := rfl
@[simp] theorem clearRange_ddrBytes (s : State) (a n : Nat) : (s.clearRange a n).ddrBytes = s.ddrBytes := rfl
@[simp] theorem clearRange_ddrSet (s : State) (a n : Nat) : (s.clearRange a n).ddrSet = s.ddrSet := rfl
@[simp] theorem clearRange_fp (s : State) (a n : Nat) : (s.clearRange a n).fp = s.fp := rfl
@[simp] theorem clearRange_plan (s : State) (a n : Nat) : (s.clearRange a n).plan = s.plan := rfl
@[simp] theorem clearRange_job (s : State) (a n : Nat) : (s.clearRange a n).job = s.job := rfl
@[simp] theorem clearRange_gate (s : State) (a n : Nat) : (s.clearRange a n).gate = s.gate := rfl
@[simp] theorem clearRange_falsework (s : State) (a n : Nat) : (s.clearRange a n).falsework = s.falsework := rfl
@[simp] theorem clearRange_streams (s : State) (a n : Nat) : (s.clearRange a n).streams = s.streams := rfl
@[simp] theorem clearRange_arrays (s : State) (a n : Nat) : (s.clearRange a n).arrays = s.arrays := rfl
@[simp] theorem clearRange_trestle (s : State) (a n : Nat) : (s.clearRange a n).trestle = s.trestle := rfl
@[simp] theorem clearRange_layers (s : State) (a n : Nat) : (s.clearRange a n).layers = s.layers := rfl
@[simp] theorem clearRange_ctr (s : State) (a n : Nat) : (s.clearRange a n).ctr = s.ctr := rfl
@[simp] theorem clearRange_pages (s : State) (a n : Nat) : (s.clearRange a n).pages = s.pages := rfl
@[simp] theorem clearRange_kernels (s : State) (a n : Nat) : (s.clearRange a n).kernels = s.kernels := rfl
@[simp] theorem clearRange_routes (s : State) (a n : Nat) : (s.clearRange a n).routes = s.routes := rfl
@[simp] theorem clearRange_net (s : State) (a n : Nat) : (s.clearRange a n).net = s.net := rfl
@[simp] theorem clearRange_coll (s : State) (a n : Nat) : (s.clearRange a n).coll = s.coll := rfl
@[simp] theorem clearRange_host (s : State) (a n : Nat) : (s.clearRange a n).host = s.host := rfl
@[simp] theorem clearRange_fw (s : State) (a n : Nat) : (s.clearRange a n).fw = s.fw := rfl
@[simp] theorem clearRange_trace (s : State) (a n : Nat) : (s.clearRange a n).trace = s.trace := rfl
@[simp] theorem clearRange_age (s : State) (a n : Nat) : (s.clearRange a n).age = s.age := rfl
@[simp] theorem clearRange_clamps (s : State) (a n : Nat) : (s.clearRange a n).clamps = s.clamps := rfl
@[simp] theorem clearRange_debugMode (s : State) (a n : Nat) : (s.clearRange a n).debugMode = s.debugMode := rfl
@[simp] theorem clearRange_pierId (s : State) (a n : Nat) : (s.clearRange a n).pierId = s.pierId := rfl
@[simp] theorem clearRange_aclk (s : State) (a n : Nat) : (s.clearRange a n).aclk = s.aclk := rfl
@[simp] theorem clearRange_freeCtr (s : State) (a n : Nat) : (s.clearRange a n).freeCtr = s.freeCtr := rfl
@[simp] theorem clearRange_pending (s : State) (a n : Nat) : (s.clearRange a n).pending = s.pending := rfl

/-! ### setStream -/

@[simp] theorem setStream_sys (s : State) (r : SRef) (t : StreamSt) : (s.setStream r t).sys = s.sys := rfl
@[simp] theorem setStream_fuses (s : State) (r : SRef) (t : StreamSt) : (s.setStream r t).fuses = s.fuses := rfl
@[simp] theorem setStream_mem (s : State) (r : SRef) (t : StreamSt) : (s.setStream r t).mem = s.mem := rfl
@[simp] theorem setStream_ecc (s : State) (r : SRef) (t : StreamSt) : (s.setStream r t).ecc = s.ecc := rfl
@[simp] theorem setStream_localGib (s : State) (r : SRef) (t : StreamSt) : (s.setStream r t).localGib = s.localGib := rfl
@[simp] theorem setStream_ddrBytes (s : State) (r : SRef) (t : StreamSt) : (s.setStream r t).ddrBytes = s.ddrBytes := rfl
@[simp] theorem setStream_ddrSet (s : State) (r : SRef) (t : StreamSt) : (s.setStream r t).ddrSet = s.ddrSet := rfl
@[simp] theorem setStream_fp (s : State) (r : SRef) (t : StreamSt) : (s.setStream r t).fp = s.fp := rfl
@[simp] theorem setStream_plan (s : State) (r : SRef) (t : StreamSt) : (s.setStream r t).plan = s.plan := rfl
@[simp] theorem setStream_job (s : State) (r : SRef) (t : StreamSt) : (s.setStream r t).job = s.job := rfl
@[simp] theorem setStream_gate (s : State) (r : SRef) (t : StreamSt) : (s.setStream r t).gate = s.gate := rfl
@[simp] theorem setStream_falsework (s : State) (r : SRef) (t : StreamSt) : (s.setStream r t).falsework = s.falsework := rfl
@[simp] theorem setStream_streams (s : State) (r : SRef) (t : StreamSt) : (s.setStream r t).streams = aset s.streams r (if t.phase = (s.stream r).phase then t else { t with since := s.aclk }) := rfl
@[simp] theorem setStream_arrays (s : State) (r : SRef) (t : StreamSt) : (s.setStream r t).arrays = s.arrays := rfl
@[simp] theorem setStream_trestle (s : State) (r : SRef) (t : StreamSt) : (s.setStream r t).trestle = s.trestle := rfl
@[simp] theorem setStream_layers (s : State) (r : SRef) (t : StreamSt) : (s.setStream r t).layers = s.layers := rfl
@[simp] theorem setStream_ctr (s : State) (r : SRef) (t : StreamSt) : (s.setStream r t).ctr = s.ctr := rfl
@[simp] theorem setStream_pages (s : State) (r : SRef) (t : StreamSt) : (s.setStream r t).pages = s.pages := rfl
@[simp] theorem setStream_kernels (s : State) (r : SRef) (t : StreamSt) : (s.setStream r t).kernels = s.kernels := rfl
@[simp] theorem setStream_routes (s : State) (r : SRef) (t : StreamSt) : (s.setStream r t).routes = s.routes := rfl
@[simp] theorem setStream_net (s : State) (r : SRef) (t : StreamSt) : (s.setStream r t).net = s.net := rfl
@[simp] theorem setStream_coll (s : State) (r : SRef) (t : StreamSt) : (s.setStream r t).coll = s.coll := rfl
@[simp] theorem setStream_host (s : State) (r : SRef) (t : StreamSt) : (s.setStream r t).host = s.host := rfl
@[simp] theorem setStream_fw (s : State) (r : SRef) (t : StreamSt) : (s.setStream r t).fw = s.fw := rfl
@[simp] theorem setStream_trace (s : State) (r : SRef) (t : StreamSt) : (s.setStream r t).trace = s.trace := rfl
@[simp] theorem setStream_age (s : State) (r : SRef) (t : StreamSt) : (s.setStream r t).age = s.age := rfl
@[simp] theorem setStream_clamps (s : State) (r : SRef) (t : StreamSt) : (s.setStream r t).clamps = s.clamps := rfl
@[simp] theorem setStream_debugMode (s : State) (r : SRef) (t : StreamSt) : (s.setStream r t).debugMode = s.debugMode := rfl
@[simp] theorem setStream_pierId (s : State) (r : SRef) (t : StreamSt) : (s.setStream r t).pierId = s.pierId := rfl
@[simp] theorem setStream_aclk (s : State) (r : SRef) (t : StreamSt) : (s.setStream r t).aclk = s.aclk := rfl
@[simp] theorem setStream_freeCtr (s : State) (r : SRef) (t : StreamSt) : (s.setStream r t).freeCtr = s.freeCtr := rfl
@[simp] theorem setStream_pending (s : State) (r : SRef) (t : StreamSt) : (s.setStream r t).pending = s.pending := rfl

/-! ### setArray -/

@[simp] theorem setArray_sys (s : State) (k : Nat) (x : Arr) (t : ArraySt) : (s.setArray k x t).sys = s.sys := rfl
@[simp] theorem setArray_fuses (s : State) (k : Nat) (x : Arr) (t : ArraySt) : (s.setArray k x t).fuses = s.fuses := rfl
@[simp] theorem setArray_mem (s : State) (k : Nat) (x : Arr) (t : ArraySt) : (s.setArray k x t).mem = s.mem := rfl
@[simp] theorem setArray_ecc (s : State) (k : Nat) (x : Arr) (t : ArraySt) : (s.setArray k x t).ecc = s.ecc := rfl
@[simp] theorem setArray_localGib (s : State) (k : Nat) (x : Arr) (t : ArraySt) : (s.setArray k x t).localGib = s.localGib := rfl
@[simp] theorem setArray_ddrBytes (s : State) (k : Nat) (x : Arr) (t : ArraySt) : (s.setArray k x t).ddrBytes = s.ddrBytes := rfl
@[simp] theorem setArray_ddrSet (s : State) (k : Nat) (x : Arr) (t : ArraySt) : (s.setArray k x t).ddrSet = s.ddrSet := rfl
@[simp] theorem setArray_fp (s : State) (k : Nat) (x : Arr) (t : ArraySt) : (s.setArray k x t).fp = s.fp := rfl
@[simp] theorem setArray_plan (s : State) (k : Nat) (x : Arr) (t : ArraySt) : (s.setArray k x t).plan = s.plan := rfl
@[simp] theorem setArray_job (s : State) (k : Nat) (x : Arr) (t : ArraySt) : (s.setArray k x t).job = s.job := rfl
@[simp] theorem setArray_gate (s : State) (k : Nat) (x : Arr) (t : ArraySt) : (s.setArray k x t).gate = s.gate := rfl
@[simp] theorem setArray_falsework (s : State) (k : Nat) (x : Arr) (t : ArraySt) : (s.setArray k x t).falsework = s.falsework := rfl
@[simp] theorem setArray_streams (s : State) (k : Nat) (x : Arr) (t : ArraySt) : (s.setArray k x t).streams = s.streams := rfl
@[simp] theorem setArray_arrays (s : State) (k : Nat) (x : Arr) (t : ArraySt) : (s.setArray k x t).arrays = aset s.arrays (k, x) t := rfl
@[simp] theorem setArray_trestle (s : State) (k : Nat) (x : Arr) (t : ArraySt) : (s.setArray k x t).trestle = s.trestle := rfl
@[simp] theorem setArray_layers (s : State) (k : Nat) (x : Arr) (t : ArraySt) : (s.setArray k x t).layers = s.layers := rfl
@[simp] theorem setArray_ctr (s : State) (k : Nat) (x : Arr) (t : ArraySt) : (s.setArray k x t).ctr = s.ctr := rfl
@[simp] theorem setArray_pages (s : State) (k : Nat) (x : Arr) (t : ArraySt) : (s.setArray k x t).pages = s.pages := rfl
@[simp] theorem setArray_kernels (s : State) (k : Nat) (x : Arr) (t : ArraySt) : (s.setArray k x t).kernels = s.kernels := rfl
@[simp] theorem setArray_routes (s : State) (k : Nat) (x : Arr) (t : ArraySt) : (s.setArray k x t).routes = s.routes := rfl
@[simp] theorem setArray_net (s : State) (k : Nat) (x : Arr) (t : ArraySt) : (s.setArray k x t).net = s.net := rfl
@[simp] theorem setArray_coll (s : State) (k : Nat) (x : Arr) (t : ArraySt) : (s.setArray k x t).coll = s.coll := rfl
@[simp] theorem setArray_host (s : State) (k : Nat) (x : Arr) (t : ArraySt) : (s.setArray k x t).host = s.host := rfl
@[simp] theorem setArray_fw (s : State) (k : Nat) (x : Arr) (t : ArraySt) : (s.setArray k x t).fw = s.fw := rfl
@[simp] theorem setArray_trace (s : State) (k : Nat) (x : Arr) (t : ArraySt) : (s.setArray k x t).trace = s.trace := rfl
@[simp] theorem setArray_age (s : State) (k : Nat) (x : Arr) (t : ArraySt) : (s.setArray k x t).age = s.age := rfl
@[simp] theorem setArray_clamps (s : State) (k : Nat) (x : Arr) (t : ArraySt) : (s.setArray k x t).clamps = s.clamps := rfl
@[simp] theorem setArray_debugMode (s : State) (k : Nat) (x : Arr) (t : ArraySt) : (s.setArray k x t).debugMode = s.debugMode := rfl
@[simp] theorem setArray_pierId (s : State) (k : Nat) (x : Arr) (t : ArraySt) : (s.setArray k x t).pierId = s.pierId := rfl
@[simp] theorem setArray_aclk (s : State) (k : Nat) (x : Arr) (t : ArraySt) : (s.setArray k x t).aclk = s.aclk := rfl
@[simp] theorem setArray_freeCtr (s : State) (k : Nat) (x : Arr) (t : ArraySt) : (s.setArray k x t).freeCtr = s.freeCtr := rfl
@[simp] theorem setArray_pending (s : State) (k : Nat) (x : Arr) (t : ArraySt) : (s.setArray k x t).pending = s.pending := rfl

/-! ### report -/

@[simp] theorem report_sys (s : State) (c : ClampRec) (cmd : Nat) : (s.report c cmd).sys = s.sys := rfl
@[simp] theorem report_fuses (s : State) (c : ClampRec) (cmd : Nat) : (s.report c cmd).fuses = s.fuses := rfl
@[simp] theorem report_mem (s : State) (c : ClampRec) (cmd : Nat) : (s.report c cmd).mem = s.mem := rfl
@[simp] theorem report_ecc (s : State) (c : ClampRec) (cmd : Nat) : (s.report c cmd).ecc = s.ecc := rfl
@[simp] theorem report_localGib (s : State) (c : ClampRec) (cmd : Nat) : (s.report c cmd).localGib = s.localGib := rfl
@[simp] theorem report_ddrBytes (s : State) (c : ClampRec) (cmd : Nat) : (s.report c cmd).ddrBytes = s.ddrBytes := rfl
@[simp] theorem report_ddrSet (s : State) (c : ClampRec) (cmd : Nat) : (s.report c cmd).ddrSet = s.ddrSet := rfl
@[simp] theorem report_fp (s : State) (c : ClampRec) (cmd : Nat) : (s.report c cmd).fp = s.fp := rfl
@[simp] theorem report_plan (s : State) (c : ClampRec) (cmd : Nat) : (s.report c cmd).plan = s.plan := rfl
@[simp] theorem report_job (s : State) (c : ClampRec) (cmd : Nat) : (s.report c cmd).job = s.job := rfl
@[simp] theorem report_gate (s : State) (c : ClampRec) (cmd : Nat) : (s.report c cmd).gate = s.gate := rfl
@[simp] theorem report_falsework (s : State) (c : ClampRec) (cmd : Nat) : (s.report c cmd).falsework = s.falsework := rfl
@[simp] theorem report_streams (s : State) (c : ClampRec) (cmd : Nat) : (s.report c cmd).streams = s.streams := rfl
@[simp] theorem report_arrays (s : State) (c : ClampRec) (cmd : Nat) : (s.report c cmd).arrays = s.arrays := rfl
@[simp] theorem report_trestle (s : State) (c : ClampRec) (cmd : Nat) : (s.report c cmd).trestle = s.trestle := rfl
@[simp] theorem report_layers (s : State) (c : ClampRec) (cmd : Nat) : (s.report c cmd).layers = s.layers := rfl
@[simp] theorem report_ctr (s : State) (c : ClampRec) (cmd : Nat) : (s.report c cmd).ctr = s.ctr := rfl
@[simp] theorem report_pages (s : State) (c : ClampRec) (cmd : Nat) : (s.report c cmd).pages = s.pages := rfl
@[simp] theorem report_kernels (s : State) (c : ClampRec) (cmd : Nat) : (s.report c cmd).kernels = s.kernels := rfl
@[simp] theorem report_routes (s : State) (c : ClampRec) (cmd : Nat) : (s.report c cmd).routes = s.routes := rfl
@[simp] theorem report_net (s : State) (c : ClampRec) (cmd : Nat) : (s.report c cmd).net = s.net := rfl
@[simp] theorem report_coll (s : State) (c : ClampRec) (cmd : Nat) : (s.report c cmd).coll = s.coll := rfl
@[simp] theorem report_fw (s : State) (c : ClampRec) (cmd : Nat) : (s.report c cmd).fw = s.fw := rfl
@[simp] theorem report_trace (s : State) (c : ClampRec) (cmd : Nat) : (s.report c cmd).trace = s.trace := rfl
@[simp] theorem report_age (s : State) (c : ClampRec) (cmd : Nat) : (s.report c cmd).age = s.age := rfl
@[simp] theorem report_debugMode (s : State) (c : ClampRec) (cmd : Nat) : (s.report c cmd).debugMode = s.debugMode := rfl
@[simp] theorem report_pierId (s : State) (c : ClampRec) (cmd : Nat) : (s.report c cmd).pierId = s.pierId := rfl
@[simp] theorem report_aclk (s : State) (c : ClampRec) (cmd : Nat) : (s.report c cmd).aclk = s.aclk := rfl
@[simp] theorem report_freeCtr (s : State) (c : ClampRec) (cmd : Nat) : (s.report c cmd).freeCtr = s.freeCtr := rfl
@[simp] theorem report_pending (s : State) (c : ClampRec) (cmd : Nat) : (s.report c cmd).pending = s.pending := rfl

/-! ### fault -/

@[simp] theorem fault_sys (s : State) (step bit : Nat) : (s.fault step bit).sys = s.sys := rfl
@[simp] theorem fault_fuses (s : State) (step bit : Nat) : (s.fault step bit).fuses = s.fuses := rfl
@[simp] theorem fault_mem (s : State) (step bit : Nat) : (s.fault step bit).mem = s.mem := rfl
@[simp] theorem fault_ecc (s : State) (step bit : Nat) : (s.fault step bit).ecc = s.ecc := rfl
@[simp] theorem fault_localGib (s : State) (step bit : Nat) : (s.fault step bit).localGib = s.localGib := rfl
@[simp] theorem fault_ddrBytes (s : State) (step bit : Nat) : (s.fault step bit).ddrBytes = s.ddrBytes := rfl
@[simp] theorem fault_ddrSet (s : State) (step bit : Nat) : (s.fault step bit).ddrSet = s.ddrSet := rfl
@[simp] theorem fault_fp (s : State) (step bit : Nat) : (s.fault step bit).fp = s.fp := rfl
@[simp] theorem fault_plan (s : State) (step bit : Nat) : (s.fault step bit).plan = s.plan := rfl
@[simp] theorem fault_gate (s : State) (step bit : Nat) : (s.fault step bit).gate = s.gate := rfl
@[simp] theorem fault_falsework (s : State) (step bit : Nat) : (s.fault step bit).falsework = s.falsework := rfl
@[simp] theorem fault_streams (s : State) (step bit : Nat) : (s.fault step bit).streams = s.streams := rfl
@[simp] theorem fault_arrays (s : State) (step bit : Nat) : (s.fault step bit).arrays = s.arrays := rfl
@[simp] theorem fault_trestle (s : State) (step bit : Nat) : (s.fault step bit).trestle = s.trestle := rfl
@[simp] theorem fault_layers (s : State) (step bit : Nat) : (s.fault step bit).layers = s.layers := rfl
@[simp] theorem fault_ctr (s : State) (step bit : Nat) : (s.fault step bit).ctr = s.ctr := rfl
@[simp] theorem fault_pages (s : State) (step bit : Nat) : (s.fault step bit).pages = s.pages := rfl
@[simp] theorem fault_kernels (s : State) (step bit : Nat) : (s.fault step bit).kernels = s.kernels := rfl
@[simp] theorem fault_routes (s : State) (step bit : Nat) : (s.fault step bit).routes = s.routes := rfl
@[simp] theorem fault_net (s : State) (step bit : Nat) : (s.fault step bit).net = s.net := rfl
@[simp] theorem fault_coll (s : State) (step bit : Nat) : (s.fault step bit).coll = s.coll := rfl
@[simp] theorem fault_host (s : State) (step bit : Nat) : (s.fault step bit).host = s.host := rfl
@[simp] theorem fault_fw (s : State) (step bit : Nat) : (s.fault step bit).fw = s.fw := rfl
@[simp] theorem fault_trace (s : State) (step bit : Nat) : (s.fault step bit).trace = s.trace := rfl
@[simp] theorem fault_age (s : State) (step bit : Nat) : (s.fault step bit).age = s.age := rfl
@[simp] theorem fault_clamps (s : State) (step bit : Nat) : (s.fault step bit).clamps = s.clamps := rfl
@[simp] theorem fault_debugMode (s : State) (step bit : Nat) : (s.fault step bit).debugMode = s.debugMode := rfl
@[simp] theorem fault_pierId (s : State) (step bit : Nat) : (s.fault step bit).pierId = s.pierId := rfl
@[simp] theorem fault_aclk (s : State) (step bit : Nat) : (s.fault step bit).aclk = s.aclk := rfl
@[simp] theorem fault_freeCtr (s : State) (step bit : Nat) : (s.fault step bit).freeCtr = s.freeCtr := rfl
@[simp] theorem fault_pending (s : State) (step bit : Nat) : (s.fault step bit).pending = s.pending := rfl

/-! ### setPort -/

@[simp] theorem setPort_sys (s : State) (p : Nat) (v : PortSt) : (s.setPort p v).sys = s.sys := rfl
@[simp] theorem setPort_fuses (s : State) (p : Nat) (v : PortSt) : (s.setPort p v).fuses = s.fuses := rfl
@[simp] theorem setPort_mem (s : State) (p : Nat) (v : PortSt) : (s.setPort p v).mem = s.mem := rfl
@[simp] theorem setPort_ecc (s : State) (p : Nat) (v : PortSt) : (s.setPort p v).ecc = s.ecc := rfl
@[simp] theorem setPort_localGib (s : State) (p : Nat) (v : PortSt) : (s.setPort p v).localGib = s.localGib := rfl
@[simp] theorem setPort_ddrBytes (s : State) (p : Nat) (v : PortSt) : (s.setPort p v).ddrBytes = s.ddrBytes := rfl
@[simp] theorem setPort_ddrSet (s : State) (p : Nat) (v : PortSt) : (s.setPort p v).ddrSet = s.ddrSet := rfl
@[simp] theorem setPort_fp (s : State) (p : Nat) (v : PortSt) : (s.setPort p v).fp = s.fp := rfl
@[simp] theorem setPort_plan (s : State) (p : Nat) (v : PortSt) : (s.setPort p v).plan = s.plan := rfl
@[simp] theorem setPort_job (s : State) (p : Nat) (v : PortSt) : (s.setPort p v).job = s.job := rfl
@[simp] theorem setPort_gate (s : State) (p : Nat) (v : PortSt) : (s.setPort p v).gate = s.gate := rfl
@[simp] theorem setPort_falsework (s : State) (p : Nat) (v : PortSt) : (s.setPort p v).falsework = s.falsework := rfl
@[simp] theorem setPort_streams (s : State) (p : Nat) (v : PortSt) : (s.setPort p v).streams = s.streams := rfl
@[simp] theorem setPort_arrays (s : State) (p : Nat) (v : PortSt) : (s.setPort p v).arrays = s.arrays := rfl
@[simp] theorem setPort_trestle (s : State) (p : Nat) (v : PortSt) : (s.setPort p v).trestle = s.trestle := rfl
@[simp] theorem setPort_layers (s : State) (p : Nat) (v : PortSt) : (s.setPort p v).layers = s.layers := rfl
@[simp] theorem setPort_ctr (s : State) (p : Nat) (v : PortSt) : (s.setPort p v).ctr = s.ctr := rfl
@[simp] theorem setPort_pages (s : State) (p : Nat) (v : PortSt) : (s.setPort p v).pages = s.pages := rfl
@[simp] theorem setPort_kernels (s : State) (p : Nat) (v : PortSt) : (s.setPort p v).kernels = s.kernels := rfl
@[simp] theorem setPort_routes (s : State) (p : Nat) (v : PortSt) : (s.setPort p v).routes = s.routes := rfl
@[simp] theorem setPort_net (s : State) (p : Nat) (v : PortSt) : (s.setPort p v).net = { s.net with ports := aset s.net.ports p v } := rfl
@[simp] theorem setPort_coll (s : State) (p : Nat) (v : PortSt) : (s.setPort p v).coll = s.coll := rfl
@[simp] theorem setPort_host (s : State) (p : Nat) (v : PortSt) : (s.setPort p v).host = s.host := rfl
@[simp] theorem setPort_fw (s : State) (p : Nat) (v : PortSt) : (s.setPort p v).fw = s.fw := rfl
@[simp] theorem setPort_trace (s : State) (p : Nat) (v : PortSt) : (s.setPort p v).trace = s.trace := rfl
@[simp] theorem setPort_age (s : State) (p : Nat) (v : PortSt) : (s.setPort p v).age = s.age := rfl
@[simp] theorem setPort_clamps (s : State) (p : Nat) (v : PortSt) : (s.setPort p v).clamps = s.clamps := rfl
@[simp] theorem setPort_debugMode (s : State) (p : Nat) (v : PortSt) : (s.setPort p v).debugMode = s.debugMode := rfl
@[simp] theorem setPort_pierId (s : State) (p : Nat) (v : PortSt) : (s.setPort p v).pierId = s.pierId := rfl
@[simp] theorem setPort_aclk (s : State) (p : Nat) (v : PortSt) : (s.setPort p v).aclk = s.aclk := rfl
@[simp] theorem setPort_freeCtr (s : State) (p : Nat) (v : PortSt) : (s.setPort p v).freeCtr = s.freeCtr := rfl
@[simp] theorem setPort_pending (s : State) (p : Nat) (v : PortSt) : (s.setPort p v).pending = s.pending := rfl

/-! ### hold -/

@[simp] theorem hold_sys (s : State) (h : Held) : (s.hold h).sys = s.sys := rfl
@[simp] theorem hold_fuses (s : State) (h : Held) : (s.hold h).fuses = s.fuses := rfl
@[simp] theorem hold_mem (s : State) (h : Held) : (s.hold h).mem = s.mem := rfl
@[simp] theorem hold_ecc (s : State) (h : Held) : (s.hold h).ecc = s.ecc := rfl
@[simp] theorem hold_localGib (s : State) (h : Held) : (s.hold h).localGib = s.localGib := rfl
@[simp] theorem hold_ddrBytes (s : State) (h : Held) : (s.hold h).ddrBytes = s.ddrBytes := rfl
@[simp] theorem hold_ddrSet (s : State) (h : Held) : (s.hold h).ddrSet = s.ddrSet := rfl
@[simp] theorem hold_fp (s : State) (h : Held) : (s.hold h).fp = s.fp := rfl
@[simp] theorem hold_plan (s : State) (h : Held) : (s.hold h).plan = s.plan := rfl
@[simp] theorem hold_job (s : State) (h : Held) : (s.hold h).job = s.job := rfl
@[simp] theorem hold_gate (s : State) (h : Held) : (s.hold h).gate = s.gate := rfl
@[simp] theorem hold_falsework (s : State) (h : Held) : (s.hold h).falsework = s.falsework := rfl
@[simp] theorem hold_streams (s : State) (h : Held) : (s.hold h).streams = s.streams := rfl
@[simp] theorem hold_arrays (s : State) (h : Held) : (s.hold h).arrays = s.arrays := rfl
@[simp] theorem hold_trestle (s : State) (h : Held) : (s.hold h).trestle = s.trestle := rfl
@[simp] theorem hold_layers (s : State) (h : Held) : (s.hold h).layers = s.layers := rfl
@[simp] theorem hold_ctr (s : State) (h : Held) : (s.hold h).ctr = s.ctr := rfl
@[simp] theorem hold_pages (s : State) (h : Held) : (s.hold h).pages = s.pages := rfl
@[simp] theorem hold_kernels (s : State) (h : Held) : (s.hold h).kernels = s.kernels := rfl
@[simp] theorem hold_routes (s : State) (h : Held) : (s.hold h).routes = s.routes := rfl
@[simp] theorem hold_net (s : State) (h : Held) : (s.hold h).net = { s.net with held := s.net.held ++ [h] } := rfl
@[simp] theorem hold_coll (s : State) (h : Held) : (s.hold h).coll = s.coll := rfl
@[simp] theorem hold_host (s : State) (h : Held) : (s.hold h).host = s.host := rfl
@[simp] theorem hold_fw (s : State) (h : Held) : (s.hold h).fw = s.fw := rfl
@[simp] theorem hold_trace (s : State) (h : Held) : (s.hold h).trace = s.trace := rfl
@[simp] theorem hold_age (s : State) (h : Held) : (s.hold h).age = s.age := rfl
@[simp] theorem hold_clamps (s : State) (h : Held) : (s.hold h).clamps = s.clamps := rfl
@[simp] theorem hold_debugMode (s : State) (h : Held) : (s.hold h).debugMode = s.debugMode := rfl
@[simp] theorem hold_pierId (s : State) (h : Held) : (s.hold h).pierId = s.pierId := rfl
@[simp] theorem hold_aclk (s : State) (h : Held) : (s.hold h).aclk = s.aclk := rfl
@[simp] theorem hold_freeCtr (s : State) (h : Held) : (s.hold h).freeCtr = s.freeCtr := rfl
@[simp] theorem hold_pending (s : State) (h : Held) : (s.hold h).pending = s.pending := rfl

/-! ### setEth -/

@[simp] theorem setEth_sys (s : State) (p : Nat) (e : EthSt) : (s.setEth p e).sys = s.sys := rfl
@[simp] theorem setEth_fuses (s : State) (p : Nat) (e : EthSt) : (s.setEth p e).fuses = s.fuses := rfl
@[simp] theorem setEth_mem (s : State) (p : Nat) (e : EthSt) : (s.setEth p e).mem = s.mem := rfl
@[simp] theorem setEth_ecc (s : State) (p : Nat) (e : EthSt) : (s.setEth p e).ecc = s.ecc := rfl
@[simp] theorem setEth_localGib (s : State) (p : Nat) (e : EthSt) : (s.setEth p e).localGib = s.localGib := rfl
@[simp] theorem setEth_ddrBytes (s : State) (p : Nat) (e : EthSt) : (s.setEth p e).ddrBytes = s.ddrBytes := rfl
@[simp] theorem setEth_ddrSet (s : State) (p : Nat) (e : EthSt) : (s.setEth p e).ddrSet = s.ddrSet := rfl
@[simp] theorem setEth_fp (s : State) (p : Nat) (e : EthSt) : (s.setEth p e).fp = s.fp := rfl
@[simp] theorem setEth_plan (s : State) (p : Nat) (e : EthSt) : (s.setEth p e).plan = s.plan := rfl
@[simp] theorem setEth_job (s : State) (p : Nat) (e : EthSt) : (s.setEth p e).job = s.job := rfl
@[simp] theorem setEth_gate (s : State) (p : Nat) (e : EthSt) : (s.setEth p e).gate = s.gate := rfl
@[simp] theorem setEth_falsework (s : State) (p : Nat) (e : EthSt) : (s.setEth p e).falsework = s.falsework := rfl
@[simp] theorem setEth_streams (s : State) (p : Nat) (e : EthSt) : (s.setEth p e).streams = s.streams := rfl
@[simp] theorem setEth_arrays (s : State) (p : Nat) (e : EthSt) : (s.setEth p e).arrays = s.arrays := rfl
@[simp] theorem setEth_trestle (s : State) (p : Nat) (e : EthSt) : (s.setEth p e).trestle = s.trestle := rfl
@[simp] theorem setEth_layers (s : State) (p : Nat) (e : EthSt) : (s.setEth p e).layers = s.layers := rfl
@[simp] theorem setEth_ctr (s : State) (p : Nat) (e : EthSt) : (s.setEth p e).ctr = s.ctr := rfl
@[simp] theorem setEth_pages (s : State) (p : Nat) (e : EthSt) : (s.setEth p e).pages = s.pages := rfl
@[simp] theorem setEth_kernels (s : State) (p : Nat) (e : EthSt) : (s.setEth p e).kernels = s.kernels := rfl
@[simp] theorem setEth_routes (s : State) (p : Nat) (e : EthSt) : (s.setEth p e).routes = s.routes := rfl
@[simp] theorem setEth_net (s : State) (p : Nat) (e : EthSt) : (s.setEth p e).net = s.net := rfl
@[simp] theorem setEth_coll (s : State) (p : Nat) (e : EthSt) : (s.setEth p e).coll = s.coll := rfl
@[simp] theorem setEth_host (s : State) (p : Nat) (e : EthSt) : (s.setEth p e).host = { s.host with eth := aset s.host.eth p e } := rfl
@[simp] theorem setEth_fw (s : State) (p : Nat) (e : EthSt) : (s.setEth p e).fw = s.fw := rfl
@[simp] theorem setEth_trace (s : State) (p : Nat) (e : EthSt) : (s.setEth p e).trace = s.trace := rfl
@[simp] theorem setEth_age (s : State) (p : Nat) (e : EthSt) : (s.setEth p e).age = s.age := rfl
@[simp] theorem setEth_clamps (s : State) (p : Nat) (e : EthSt) : (s.setEth p e).clamps = s.clamps := rfl
@[simp] theorem setEth_debugMode (s : State) (p : Nat) (e : EthSt) : (s.setEth p e).debugMode = s.debugMode := rfl
@[simp] theorem setEth_pierId (s : State) (p : Nat) (e : EthSt) : (s.setEth p e).pierId = s.pierId := rfl
@[simp] theorem setEth_aclk (s : State) (p : Nat) (e : EthSt) : (s.setEth p e).aclk = s.aclk := rfl
@[simp] theorem setEth_freeCtr (s : State) (p : Nat) (e : EthSt) : (s.setEth p e).freeCtr = s.freeCtr := rfl
@[simp] theorem setEth_pending (s : State) (p : Nat) (e : EthSt) : (s.setEth p e).pending = s.pending := rfl

/-! ### setQp -/

@[simp] theorem setQp_sys (s : State) (port qpn : Nat) (f : Qp → Qp) : (s.setQp port qpn f).sys = s.sys := rfl
@[simp] theorem setQp_fuses (s : State) (port qpn : Nat) (f : Qp → Qp) : (s.setQp port qpn f).fuses = s.fuses := rfl
@[simp] theorem setQp_mem (s : State) (port qpn : Nat) (f : Qp → Qp) : (s.setQp port qpn f).mem = s.mem := rfl
@[simp] theorem setQp_ecc (s : State) (port qpn : Nat) (f : Qp → Qp) : (s.setQp port qpn f).ecc = s.ecc := rfl
@[simp] theorem setQp_localGib (s : State) (port qpn : Nat) (f : Qp → Qp) : (s.setQp port qpn f).localGib = s.localGib := rfl
@[simp] theorem setQp_ddrBytes (s : State) (port qpn : Nat) (f : Qp → Qp) : (s.setQp port qpn f).ddrBytes = s.ddrBytes := rfl
@[simp] theorem setQp_ddrSet (s : State) (port qpn : Nat) (f : Qp → Qp) : (s.setQp port qpn f).ddrSet = s.ddrSet := rfl
@[simp] theorem setQp_fp (s : State) (port qpn : Nat) (f : Qp → Qp) : (s.setQp port qpn f).fp = s.fp := rfl
@[simp] theorem setQp_plan (s : State) (port qpn : Nat) (f : Qp → Qp) : (s.setQp port qpn f).plan = s.plan := rfl
@[simp] theorem setQp_job (s : State) (port qpn : Nat) (f : Qp → Qp) : (s.setQp port qpn f).job = s.job := rfl
@[simp] theorem setQp_gate (s : State) (port qpn : Nat) (f : Qp → Qp) : (s.setQp port qpn f).gate = s.gate := rfl
@[simp] theorem setQp_falsework (s : State) (port qpn : Nat) (f : Qp → Qp) : (s.setQp port qpn f).falsework = s.falsework := rfl
@[simp] theorem setQp_streams (s : State) (port qpn : Nat) (f : Qp → Qp) : (s.setQp port qpn f).streams = s.streams := rfl
@[simp] theorem setQp_arrays (s : State) (port qpn : Nat) (f : Qp → Qp) : (s.setQp port qpn f).arrays = s.arrays := rfl
@[simp] theorem setQp_trestle (s : State) (port qpn : Nat) (f : Qp → Qp) : (s.setQp port qpn f).trestle = s.trestle := rfl
@[simp] theorem setQp_layers (s : State) (port qpn : Nat) (f : Qp → Qp) : (s.setQp port qpn f).layers = s.layers := rfl
@[simp] theorem setQp_ctr (s : State) (port qpn : Nat) (f : Qp → Qp) : (s.setQp port qpn f).ctr = s.ctr := rfl
@[simp] theorem setQp_pages (s : State) (port qpn : Nat) (f : Qp → Qp) : (s.setQp port qpn f).pages = s.pages := rfl
@[simp] theorem setQp_kernels (s : State) (port qpn : Nat) (f : Qp → Qp) : (s.setQp port qpn f).kernels = s.kernels := rfl
@[simp] theorem setQp_routes (s : State) (port qpn : Nat) (f : Qp → Qp) : (s.setQp port qpn f).routes = s.routes := rfl
@[simp] theorem setQp_net (s : State) (port qpn : Nat) (f : Qp → Qp) : (s.setQp port qpn f).net = s.net := rfl
@[simp] theorem setQp_coll (s : State) (port qpn : Nat) (f : Qp → Qp) : (s.setQp port qpn f).coll = s.coll := rfl
@[simp] theorem setQp_fw (s : State) (port qpn : Nat) (f : Qp → Qp) : (s.setQp port qpn f).fw = s.fw := rfl
@[simp] theorem setQp_trace (s : State) (port qpn : Nat) (f : Qp → Qp) : (s.setQp port qpn f).trace = s.trace := rfl
@[simp] theorem setQp_age (s : State) (port qpn : Nat) (f : Qp → Qp) : (s.setQp port qpn f).age = s.age := rfl
@[simp] theorem setQp_clamps (s : State) (port qpn : Nat) (f : Qp → Qp) : (s.setQp port qpn f).clamps = s.clamps := rfl
@[simp] theorem setQp_debugMode (s : State) (port qpn : Nat) (f : Qp → Qp) : (s.setQp port qpn f).debugMode = s.debugMode := rfl
@[simp] theorem setQp_pierId (s : State) (port qpn : Nat) (f : Qp → Qp) : (s.setQp port qpn f).pierId = s.pierId := rfl
@[simp] theorem setQp_aclk (s : State) (port qpn : Nat) (f : Qp → Qp) : (s.setQp port qpn f).aclk = s.aclk := rfl
@[simp] theorem setQp_freeCtr (s : State) (port qpn : Nat) (f : Qp → Qp) : (s.setQp port qpn f).freeCtr = s.freeCtr := rfl
@[simp] theorem setQp_pending (s : State) (port qpn : Nat) (f : Qp → Qp) : (s.setQp port qpn f).pending = s.pending := rfl

/-! ### send -/

@[simp] theorem send_sys (s : State) (m : HostMsg) : (s.send m).sys = s.sys := rfl
@[simp] theorem send_fuses (s : State) (m : HostMsg) : (s.send m).fuses = s.fuses := rfl
@[simp] theorem send_mem (s : State) (m : HostMsg) : (s.send m).mem = s.mem := rfl
@[simp] theorem send_ecc (s : State) (m : HostMsg) : (s.send m).ecc = s.ecc := rfl
@[simp] theorem send_localGib (s : State) (m : HostMsg) : (s.send m).localGib = s.localGib := rfl
@[simp] theorem send_ddrBytes (s : State) (m : HostMsg) : (s.send m).ddrBytes = s.ddrBytes := rfl
@[simp] theorem send_ddrSet (s : State) (m : HostMsg) : (s.send m).ddrSet = s.ddrSet := rfl
@[simp] theorem send_fp (s : State) (m : HostMsg) : (s.send m).fp = s.fp := rfl
@[simp] theorem send_plan (s : State) (m : HostMsg) : (s.send m).plan = s.plan := rfl
@[simp] theorem send_job (s : State) (m : HostMsg) : (s.send m).job = s.job := rfl
@[simp] theorem send_gate (s : State) (m : HostMsg) : (s.send m).gate = s.gate := rfl
@[simp] theorem send_falsework (s : State) (m : HostMsg) : (s.send m).falsework = s.falsework := rfl
@[simp] theorem send_streams (s : State) (m : HostMsg) : (s.send m).streams = s.streams := rfl
@[simp] theorem send_arrays (s : State) (m : HostMsg) : (s.send m).arrays = s.arrays := rfl
@[simp] theorem send_trestle (s : State) (m : HostMsg) : (s.send m).trestle = s.trestle := rfl
@[simp] theorem send_layers (s : State) (m : HostMsg) : (s.send m).layers = s.layers := rfl
@[simp] theorem send_ctr (s : State) (m : HostMsg) : (s.send m).ctr = s.ctr := rfl
@[simp] theorem send_pages (s : State) (m : HostMsg) : (s.send m).pages = s.pages := rfl
@[simp] theorem send_kernels (s : State) (m : HostMsg) : (s.send m).kernels = s.kernels := rfl
@[simp] theorem send_routes (s : State) (m : HostMsg) : (s.send m).routes = s.routes := rfl
@[simp] theorem send_net (s : State) (m : HostMsg) : (s.send m).net = s.net := rfl
@[simp] theorem send_coll (s : State) (m : HostMsg) : (s.send m).coll = s.coll := rfl
@[simp] theorem send_host (s : State) (m : HostMsg) : (s.send m).host = { s.host with out := s.host.out ++ [m] } := rfl
@[simp] theorem send_fw (s : State) (m : HostMsg) : (s.send m).fw = s.fw := rfl
@[simp] theorem send_trace (s : State) (m : HostMsg) : (s.send m).trace = s.trace := rfl
@[simp] theorem send_age (s : State) (m : HostMsg) : (s.send m).age = s.age := rfl
@[simp] theorem send_clamps (s : State) (m : HostMsg) : (s.send m).clamps = s.clamps := rfl
@[simp] theorem send_debugMode (s : State) (m : HostMsg) : (s.send m).debugMode = s.debugMode := rfl
@[simp] theorem send_pierId (s : State) (m : HostMsg) : (s.send m).pierId = s.pierId := rfl
@[simp] theorem send_aclk (s : State) (m : HostMsg) : (s.send m).aclk = s.aclk := rfl
@[simp] theorem send_freeCtr (s : State) (m : HostMsg) : (s.send m).freeCtr = s.freeCtr := rfl
@[simp] theorem send_pending (s : State) (m : HostMsg) : (s.send m).pending = s.pending := rfl

/-! ### Counting -/

@[simp] theorem bump_mem (s : State) (b : Bank) (i n : Nat) : (s.bump b i n).mem = s.mem := by unfold bump; split <;> rfl
@[simp] theorem bump_ecc (s : State) (b : Bank) (i n : Nat) : (s.bump b i n).ecc = s.ecc := by unfold bump; split <;> rfl
@[simp] theorem bump_streams (s : State) (b : Bank) (i n : Nat) : (s.bump b i n).streams = s.streams := by unfold bump; split <;> rfl
@[simp] theorem bump_job (s : State) (b : Bank) (i n : Nat) : (s.bump b i n).job = s.job := by unfold bump; split <;> rfl
@[simp] theorem bump_plan (s : State) (b : Bank) (i n : Nat) : (s.bump b i n).plan = s.plan := by unfold bump; split <;> rfl
@[simp] theorem bump_host (s : State) (b : Bank) (i n : Nat) : (s.bump b i n).host = s.host := by unfold bump; split <;> rfl

/-! ### The canonical form -/

/-- Both byte lists stand in their canonical form. -/
def Canon (s : State) : Prop := Memory.wf s.mem = true ∧ Memory.wf s.ecc = true

theorem reset_canon : State.reset.Canon := ⟨rfl, rfl⟩

theorem bump_canon {s : State} (h : s.Canon) (b : Bank) (i n : Nat) : (s.bump b i n).Canon := by simpa [Canon] using h

theorem setWord_canon {s : State} (h : s.Canon) (a w : Nat) (p : Bool) : (s.setWord a w p).Canon :=
  ⟨Memory.wf_putWord h.1 _ _, Memory.wf_mput h.2 _ _⟩

theorem writePart_canon {s : State} (h : s.Canon) (a : Nat) (bs : List (Byte × Bool)) : (s.writePart a bs).Canon := by
  unfold writePart
  simp only
  split
  · exact h
  · split
    · exact setWord_canon h _ _ _
    · split
      · exact setWord_canon (bump_canon h _ _ _) _ _ _
      · exact setWord_canon h _ _ _

theorem writeWords_canon (f : Nat) {s : State} (h : s.Canon) (a : Nat) (bs : List (Byte × Bool)) : (writeWords f s a bs).Canon := by
  induction f generalizing s a bs with
  | zero => cases bs <;> exact h
  | succ f ih =>
    cases bs with
    | nil => exact h
    | cons c cs => exact ih (writePart_canon h _ _) _ _

theorem write_canon {s : State} (h : s.Canon) (a : Nat) (bs : List (Byte × Bool)) : (s.write a bs).Canon := writeWords_canon _ h _ _

theorem writeData_canon {s : State} (h : s.Canon) (a : Nat) (bs : List Byte) : (s.writeData a bs).Canon := write_canon h _ _

theorem writeNat_canon {s : State} (h : s.Canon) (a n v : Nat) : (s.writeNat a n v).Canon := write_canon h _ _

theorem writeF32_canon {s : State} (h : s.Canon) (a : Nat) (v : F32 × Bool) : (s.writeF32 a v).Canon := write_canon h _ _

theorem writeRest_canon (g : Agent) (s0 : State) (a : Nat) (xs : List ((Byte × Bool) × Nat)) {s : State} (h : s.Canon) :
    (xs.foldl (fun (t : State) p => if s0.reach g true (a + p.2) then t.write (a + p.2) [p.1] else t) s).Canon := by
  induction xs generalizing s with
  | nil => exact h
  | cons x xs ih =>
    rw [List.foldl_cons]
    apply ih
    split
    · exact write_canon h _ _
    · exact h

theorem writeBy_canon {s : State} (h : s.Canon) (g : Agent) (a : Nat) (bs : List (Byte × Bool)) : (s.writeBy g a bs).Canon := by
  induction bs generalizing a with
  | nil => exact h
  | cons b bs ih =>
    unfold writeBy
    simp only
    split
    · exact write_canon h _ _
    · split
      · exact ih _
      · exact writeRest_canon g s a _ (write_canon h _ _)

theorem setSync_canon {s : State} (h : s.Canon) (id v : Nat) : (s.setSync id v).Canon := writeNat_canon h _ _ _

theorem emptyRange_canon {s : State} (h : s.Canon) (a n : Nat) : (s.emptyRange a n).Canon :=
  ⟨Memory.wf_filter h.1 _, Memory.wf_filter h.2 _⟩

theorem clearRange_canon {s : State} (h : s.Canon) (a n : Nat) : (s.clearRange a n).Canon :=
  ⟨Memory.wf_filter h.1 _, Memory.wf_filter h.2 _⟩

theorem notePoison_canon {s : State} (h : s.Canon) (a : Nat) : (s.notePoison a).Canon := by
  unfold notePoison; split <;> exact h

theorem noteRow_canon {s : State} (h : s.Canon) (b : Bank) (k : Nat) : (s.noteRow b k).Canon := by
  unfold noteRow; simp only; split <;> exact h

/-- A read unit corrected or poisoned keeps the form. -/
theorem noteUnit_canon {s : State} (h : s.Canon) (ce ue k : Nat) (e : Byte) : (s.noteUnit ce ue k e).Canon := by
  unfold noteUnit
  simp only
  split
  · split
    · exact notePoison_canon (bump_canon h _ _ _) _
    · exact h
  · constructor
    · simpa only [bump_mem] using h.1
    · simpa only [bump_ecc] using Memory.wf_mput h.2 _ _
  · constructor
    · simpa only [bump_mem] using Memory.wf_putWord h.1 _ _
    · simpa only [bump_ecc] using Memory.wf_mput h.2 _ _
  · have t : State.Canon { s with ecc := mput s.ecc k eccPoison } := ⟨h.1, Memory.wf_mput h.2 k eccPoison⟩
    have u := noteRow_canon (bump_canon t (s.memBank (addrOf s.localGib k)) ue 1) (s.memBank (addrOf s.localGib k)) k
    split
    · exact notePoison_canon u _
    · exact u

/-- A pier gone cold keeps the form. -/
theorem cold_canon {s : State} (h : s.Canon) (sys : Sys) (ddr : Bool) : (s.cold sys ddr).Canon := by
  cases ddr
  · exact ⟨rfl, rfl⟩
  · exact ⟨Memory.wf_filter h.1 _, Memory.wf_filter h.2 _⟩

end Sys2Proof.Machine.State
end

