-- ==== Sys2Proof/Laws/Sync.lean ====
section
/-! SUPPORT. Sync objects: an object's count is what was last set, and other objects keep theirs. -/

set_option Elab.async false

namespace Sys2Proof.Machine

theorem leNat_natLE (k n : Nat) : leNat (natLE k n) = n % 256 ^ k := by
  induction k generalizing n with
  | zero => simp [leNat, natLE, Nat.mod_one]
  | succ k ih =>
    simp only [natLE, leNat, ih, BitVec.toNat_ofNat]
    rw [show 256 ^ (k + 1) = 256 * 256 ^ k by rw [Nat.pow_succ, Nat.mul_comm], Nat.mod_mul]

theorem natLE_length (k n : Nat) : (natLE k n).length = k := by
  induction k generalizing n with
  | zero => rfl
  | succ k ih => simp [natLE, ih]

namespace State

/-- A whole word written is one stored unit. -/
theorem writeNat4 (s : State) (a v : Nat) (ha : a % 4 = 0) (m : s.mapped a = true) :
    s.writeNat a 4 v = s.setWord a (v % 2 ^ 32) false := by
  have e : a / 4 * 4 = a := by omega
  have q : 4 - a % 4 = 4 := by omega
  unfold writeNat writeData write
  simp only [List.length_map, natLE_length]
  have h : (natLE 4 v).map (fun b => (b, false)) = (BitVec.ofNat 8 v, false) :: ((natLE 4 v).map (fun b => (b, false))).drop 1 := by
    simp [natLE]
  rw [h]
  simp only [writeWords, q]
  have d : (((BitVec.ofNat 8 v, false) :: ((natLE 4 v).map (fun b => (b, false))).drop 1 : List (Byte × Bool)).drop 4) = [] := by simp [natLE]
  have t : (((BitVec.ofNat 8 v, false) :: ((natLE 4 v).map (fun b => (b, false))).drop 1 : List (Byte × Bool)).take 4)
      = (natLE 4 v).map (fun b => (b, false)) := by simp [natLE]
  rw [d, t]
  have w : ∀ u : State, writeWords 4 u (a + 4) [] = u := fun _ => rfl
  rw [w]
  unfold writePart
  simp only [e, m, List.length_map, natLE_length, List.map_map]
  have l : (natLE 4 v).map ((fun x : Byte × Bool => x.1) ∘ fun b => (b, false)) = natLE 4 v := by
    rw [show ((fun x : Byte × Bool => x.1) ∘ fun b => (b, false)) = id from rfl, List.map_id]
  rw [l, leNat_natLE]
  simp [natLE]

theorem nat4_of_word (s : State) (a : Nat) (ha : a % 4 = 0) (m : ∀ i < 4, s.mapped (a + i) = true) : s.nat a 4 = (s.word a).1.toNat := by
  have b : ∀ i < 4, (s.byte (a + i)).1 = BitVec.ofNat 8 ((s.word a).1.toNat / 256 ^ i) := by
    intro i hi
    unfold byte
    rw [m i hi, show (a + i) / 4 * 4 = a by omega, show (a + i) % 4 = i by omega]
    rfl
  have b0 := b 0 (by omega)
  rw [Nat.add_zero] at b0
  unfold nat data
  simp only [bytes, List.map_cons, List.map_nil, leNat, b0, b 1 (by omega), Nat.add_assoc, b 2 (by omega), b 3 (by omega),
    Nat.reduceAdd, BitVec.toNat_ofNat]
  have := (s.word a).1.isLt
  omega

theorem sync_mapped (s : State) (id i : Nat) (h : i < 16) : s.mapped (syncAddr id + i) = true := by
  have : id % 65536 < 65536 := Nat.mod_lt _ (by omega)
  have r : inRanges descRanges (syncAddr id + i) = true := by
    simp only [inRanges, descRanges, syncAddr, SYNC_BASE, List.any_cons, Bool.or_eq_true, Bool.and_eq_true]
    refine .inr (.inl ⟨decide_eq_true (by omega), decide_eq_true (by omega)⟩)
  have l : SYNC_BASE ≤ syncAddr id + i := by unfold syncAddr; omega
  unfold mapped
  rw [if_neg (by simp only [HBM_END, STACK, GiB, SYNC_BASE] at *; omega), if_neg (by simp only [CLUSTER_BASE, SYNC_BASE] at *; omega),
    if_neg (by simp only [CORE_BASE, SYNC_BASE] at *; omega), if_neg (by simp only [DESC_BASE, SYNC_BASE] at *; omega)]
  exact r

/-- An object's count is what was set. -/
theorem syncCount_setSync_eq (s : State) (id v : Nat) : (s.setSync id v).syncCount id = v % 2 ^ 32 := by
  have a : (syncAddr id + 12) % 4 = 0 := by unfold syncAddr SYNC_BASE; omega
  have m : ∀ i < 4, s.mapped (syncAddr id + 12 + i) = true := fun i hi => by rw [Nat.add_assoc]; exact s.sync_mapped id _ (by omega)
  unfold syncCount setSync
  rw [writeNat4 s _ _ a (m 0 (by omega)), nat4_of_word (s.setWord _ _ _) _ a m, word_setWord_eq]
  simp

/-- Bytes outside an object's count are as they were. -/
theorem setSync_byte (s : State) (id v b : Nat) (h : b / 4 * 4 ≠ syncAddr id + 12) : (s.setSync id v).byte b = s.byte b := by
  apply write_byte_ne
  simp only [List.length_map, natLE_length]
  have : (syncAddr id + 12) % 4 = 0 := by unfold syncAddr SYNC_BASE; omega
  omega

/-- Another object keeps its count. -/
theorem syncCount_setSync_ne (s : State) (id j v : Nat) (h : j % 65536 ≠ id % 65536) : (s.setSync id v).syncCount j = s.syncCount j := by
  have b : ∀ i < 4, (s.setSync id v).byte (syncAddr j + 12 + i) = s.byte (syncAddr j + 12 + i) := by
    intro i hi
    apply setSync_byte
    unfold syncAddr SYNC_BASE
    omega
  have b0 := b 0 (by omega)
  rw [Nat.add_zero] at b0
  unfold syncCount nat data
  simp only [bytes, b0, b 1 (by omega), Nat.add_assoc, Nat.reduceAdd]
  rw [show syncAddr j + 14 = syncAddr j + 12 + 2 from rfl, show syncAddr j + 15 = syncAddr j + 12 + 3 from rfl, b 2 (by omega), b 3 (by omega)]

end State

end Sys2Proof.Machine
end

