-- ==== Sys2Proof/WellFormed.lean ====
section
/-! DEFINITION. Well-formed commands: what a sender can send, each operand within the width or the count that the manual
gives it. A command that is not well-formed has a meaning too; statements do not need this. -/

set_option Elab.async false

namespace Sys2Proof

/-- A stream of the 2,048 core slots or the 12 camber units (R12, R120). -/
def SRef.wf : SRef → Bool
  | .f k | .b k => decide (k < 2048)
  | .u n => decide (n < 12)

/-- Fields of a command packet within their widths, and a block that fits a datagram (R341). -/
def HostCmd.wf (c : HostCmd) : Bool :=
  decide (c.port < 2) && decide (c.srcIp < 2 ^ 128) && decide (c.srcPort < 65536) && decide (c.version < 256) && decide (c.flags < 256) &&
  decide (c.status < 65536) && decide (c.session < 2 ^ 32) && decide (c.seq < 2 ^ 64) && decide (c.cmdId < 2 ^ 32) && decide (c.plen < 65536) &&
  decide (c.pier < 4096) && decide (c.reserved < 2 ^ 52) && decide (c.tag < 2 ^ 128) && decide (c.block.length ≤ 8192)

/-- A flit's header, words, poison map and CRC within their widths (R273). -/
def Flit.wf (f : Flit) : Bool :=
  decide (f.hdr < 2 ^ 160) && decide (f.words.length ≤ 56) && f.words.all (fun w => decide (w < 2 ^ 32)) && decide (f.pmap < 2 ^ 64) &&
  decide (f.crc < 2 ^ 32) && decide (f.tail < 4)

/-- An address of the page window (R188, R270). -/
def pageWindow (a : Nat) : Bool := decide (0x080080000000 ≤ a) && decide (a < 0x080100000000)

/-- A page copy's ends: a window address, a local address, a pier, and for a write from a pier its rows (R188). -/
def PagePart.wf (p : PagePart) : Bool :=
  pageWindow p.win && decide (0 < p.rows) && decide (p.other < 2 ^ 48) &&
  match p.pier with | none => p.data.isEmpty | some q => decide (q < 2048)

/-- Whether a command's operands are within what its sender can send. -/
def Instr.wf : Instr → Bool
  | .hello c | .openSession c | .close c | .keepalive c | .netConfig c | .rollCall c | .regionOpen c | .regionClose c
  | .ringSetup c | .qpConnect c | .fwLoadBegin c | .fwLoadData c | .fwLoadCommit c _ | .fwReplace c
  | .fwReplacePeriodsOnly c | .wearlogRead c | .wearlogHandBack c | .planLoad c | .planUpdate c | .planUnload c
  | .descWrite c | .jobStart c | .jobAssign c | .spanCreate c | .spanDelete c | .slotWrite c | .syncSignal c
  | .syncWait c | .floorplanRead c | .counterRead c | .clampRead c | .statusQuery c | .poisonRead c | .abort c
  | .drainDetach c | .retireUnit c | .snapshotTake c | .snapshotRead c | .snapshotRelease c | .snapshotTraceRead c
  | .traceCtlSample c | .traceCtlTrace c | .traceCtlTrigger c | .traceCtlStop c | .traceCtlStatus c | .debugMode c
  | .matmul c | .attnFwd c | .attnBwd c | .rmsnorm c | .rmsnormBwd c | .layernorm c | .layernormBwd c | .softmax c
  | .softmaxBwd c | .xent c | .opRoute c | .opCombine c | .opCombineBwd c | .opRouteBwd c | .embed c | .embedBwd c
  | .convert c | .init c | .collective c | .update c | .copyRefresh c | .fwWrite c | .fwRestore c | .reshard c => c.wf
  | .sessionIdleTimeout | .fwReplaceProbationEnd | .jobStartTimeout | .reshardStageBarrier | .reshardInstallBarrier
  | .ringEntry | .pwrEnRise | .pwrEnFall | .vinUndervoltage | .vinDip | .resetNFall | .startUpTestDone _
  | .memoryTestDone _ | .computeResetNFall | .computeResetNRise _ | .powerSample _ | .thermalTrip | .eyeMarginCheck _
  | .quietIntervalExpiry | .collectiveEntryStart | .vote | .gateDecide | .voteTimeout | .gateResult | .copiesVerified
  | .generationLocalWritten | .sampleTick | .ageingDailySample | .vinWithinOperatingRange => true
  | .syncWaitTimeout cmdId => decide (cmdId < 2 ^ 32)
  | .sqTailWrite tail => decide (tail < 2 ^ 32)
  | .rdmaWrite port qpn va rkey _ =>
    decide (port < 2) && decide (qpn < 2 ^ 24) && decide (va < 2 ^ 64) && decide (rkey < 2 ^ 32)
  | .rdmaRead port qpn va rkey len =>
    decide (port < 2) && decide (qpn < 2 ^ 24) && decide (va < 2 ^ 64) && decide (rkey < 2 ^ 32) && decide (len < 2 ^ 32)
  | .rdmaInvalidRequest port qpn opcode => decide (port < 2) && decide (qpn < 2 ^ 24) && decide (opcode < 256)
  | .cnpReceived port qpn | .rateRestore port qpn => decide (port < 2) && decide (qpn < 2 ^ 24)
  | .ethUnsupported port | .icmpEcho port _ _ | .ethTrainingTurn port | .ethPortDown port | .ethLinkUp port =>
    decide (port < 2)
  | .neighbourDiscovery port target => decide (port < 2) && decide (target < 2 ^ 128)
  | .dhcpReply port _ addr => decide (port < 2) && decide (addr < 2 ^ 128)
  | .resetNRise slotId => decide (slotId < 16)
  | .memoryTrainingDone _ dimms => decide (dimms < 2 ^ 64)
  | .rejoinTimeout pier => decide (pier < 2048)
  | .rootPllLossOfLock die | .junctionSample die _ _ => decide (die < 6)
  | .laneLockLoss port lane | .symbolRateCheck port lane _ _ => decide (port < 16) && decide (lane < 4)
  | .portTrainingRetry port | .retryReqRepeat port | .ackTimer port | .retryExhausted port => decide (port < 16)
  | .flitIdent port f | .flitIdle port f | .flitWrite port f | .flitReadReq port f | .flitSignal port f
  | .flitColl port f | .flitCtrl port f | .flitRetryReq port f => decide (port < 16) && f.wf
  | .stepBegin r | .tprod r | .tbprod r | .vrun r | .attentionKernel r | .route r | .combine r | .combineBwd r
  | .routeBwd r | .qamax r | .qchamax r | .qconv r | .mcopy r | .mfill r | .mbankread r | .swait r | .sadd r
  | .sset r | .sspan r | .loop r | .loopm r | .endloop r | .fence r | .gate r | .end_ r | .bridx r | .mark r | .up1 r
  | .up2 r | .ucopy r | .instructionCompletion r _ | .hangIntervalExpiry r => r.wf
  | .lend core | .accumulationComplete core _ | .drainStart core _ | .drainComplete core _
  | .fEngineInServiceTest core _ => decide (core < 2048)
  | .trestleJob cluster => decide (cluster < 64)
  | .expertRowsLanded coll expert => decide (coll < 2 ^ 32) && decide (expert < 65536)
  | .collectiveComplete coll => decide (coll < 2 ^ 32)
  | .buddyShardLands shard => decide (shard < 4095)
  | .fwHoldRelease layer => decide (layer < 12 * 65536)
  | .pagePartWrite p | .pagePartRead p => p.wf
  | .lease win dst => pageWindow win && decide (dst < 2 ^ 48)
  | .release win | .clear win => pageWindow win
  | .spillLands entry | .fetchLands entry => decide (entry < 2097152)
  | .patrolScrub key => decide (key < 2 ^ 48)
  | .watchdogExpiry kind index => decide (kind < 16) && decide (index < 4096)
  | .traceFrozen slot => decide (slot < 64)
  | .roReading cluster _ => decide (cluster < 68)

end Sys2Proof
end

