-- ==== Sys2Proof/Tests/Slice0.lean ====
section
/-! SUPPORT. Tests: ill-formed commands refused, and for each statement states and operands that meet its hypotheses
together. -/

set_option Elab.async false

namespace Sys2Proof.Tests

open Sys2Proof Sys2Proof.Machine

/-! ### Well-formed commands -/

theorem test_wf_ok : Instr.wf (.keepalive {}) = true := by decide
theorem test_wf_host_port : Instr.wf (.hello { port := 2 }) = false := by decide
theorem test_wf_host_ip : Instr.wf (.hello { srcIp := 2 ^ 128 }) = false := by decide
theorem test_wf_host_udp : Instr.wf (.hello { srcPort := 65536 }) = false := by decide
theorem test_wf_host_version : Instr.wf (.hello { version := 256 }) = false := by decide
theorem test_wf_host_flags : Instr.wf (.hello { flags := 256 }) = false := by decide
theorem test_wf_host_status : Instr.wf (.hello { status := 65536 }) = false := by decide
theorem test_wf_host_session : Instr.wf (.close { session := 2 ^ 32 }) = false := by decide
theorem test_wf_host_seq : Instr.wf (.close { seq := 2 ^ 64 }) = false := by decide
theorem test_wf_host_cmd : Instr.wf (.close { cmdId := 2 ^ 32 }) = false := by decide
theorem test_wf_host_plen : Instr.wf (.close { plen := 65536 }) = false := by decide
theorem test_wf_host_pier : Instr.wf (.close { pier := 4096 }) = false := by decide
theorem test_wf_host_reserved : Instr.wf (.close { reserved := 2 ^ 52 }) = false := by decide
theorem test_wf_host_tag : Instr.wf (.close { tag := 2 ^ 128 }) = false := by decide
theorem test_wf_host_block : Instr.wf (.matmul { block := List.replicate 8193 0#8 }) = false := by decide +kernel
theorem test_wf_wait : Instr.wf (.syncWaitTimeout (2 ^ 32)) = false := by decide
theorem test_wf_tail : Instr.wf (.sqTailWrite (2 ^ 32)) = false := by decide
theorem test_wf_rdma_port : Instr.wf (.rdmaWrite 2 0 0 0 []) = false := by decide
theorem test_wf_rdma_qpn : Instr.wf (.rdmaRead 0 (2 ^ 24) 0 0 0) = false := by decide
theorem test_wf_rdma_va : Instr.wf (.rdmaWrite 0 0 (2 ^ 64) 0 []) = false := by decide
theorem test_wf_rdma_key : Instr.wf (.rdmaRead 0 0 0 (2 ^ 32) 0) = false := by decide
theorem test_wf_rdma_len : Instr.wf (.rdmaRead 0 0 0 0 (2 ^ 32)) = false := by decide
theorem test_wf_rdma_opcode : Instr.wf (.rdmaInvalidRequest 0 0 256) = false := by decide
theorem test_wf_rate : Instr.wf (.rateRestore 0 (2 ^ 24)) = false := by decide
theorem test_wf_eth : Instr.wf (.ethLinkUp 2) = false := by decide
theorem test_wf_neighbour : Instr.wf (.neighbourDiscovery 0 (2 ^ 128)) = false := by decide
theorem test_wf_lease_address : Instr.wf (.dhcpReply 1 true (2 ^ 128)) = false := by decide
theorem test_wf_slot_id : Instr.wf (.resetNRise 16) = false := by decide
theorem test_wf_dimms : Instr.wf (.memoryTrainingDone [] (2 ^ 64)) = false := by decide
theorem test_wf_pier : Instr.wf (.rejoinTimeout 2048) = false := by decide
theorem test_wf_die : Instr.wf (.rootPllLossOfLock 6) = false := by decide
theorem test_wf_lane : Instr.wf (.laneLockLoss 15 4) = false := by decide
theorem test_wf_port : Instr.wf (.ackTimer 16) = false := by decide
theorem test_wf_flit_header : Instr.wf (.flitWrite 0 { hdr := 2 ^ 160 }) = false := by decide
theorem test_wf_flit_length : Instr.wf (.flitWrite 0 { hdr := 0, words := List.replicate 57 0 }) = false := by decide
theorem test_wf_flit_word : Instr.wf (.flitWrite 0 { hdr := 0, words := [2 ^ 32] }) = false := by decide
theorem test_wf_flit_poison : Instr.wf (.flitWrite 0 { hdr := 0, pmap := 2 ^ 64 }) = false := by decide
theorem test_wf_flit_crc : Instr.wf (.flitWrite 0 { hdr := 0, crc := 2 ^ 32 }) = false := by decide
theorem test_wf_flit_tail : Instr.wf (.flitWrite 0 { hdr := 0, tail := 4 }) = false := by decide
theorem test_wf_core_stream : Instr.wf (.tprod (.f 2048)) = false := by decide
theorem test_wf_unit_stream : Instr.wf (.up1 (.u 12)) = false := by decide
theorem test_wf_core : Instr.wf (.lend 2048) = false := by decide
theorem test_wf_trestle : Instr.wf (.trestleJob 64) = false := by decide
theorem test_wf_expert : Instr.wf (.expertRowsLanded 0 65536) = false := by decide
theorem test_wf_collective : Instr.wf (.collectiveComplete (2 ^ 32)) = false := by decide
theorem test_wf_shard : Instr.wf (.buddyShardLands 4095) = false := by decide
theorem test_wf_layer : Instr.wf (.fwHoldRelease (12 * 65536)) = false := by decide
theorem test_wf_window : Instr.wf (.release 0x080100000000) = false := by decide
theorem test_wf_part_rows : Instr.wf (.pagePartRead { win := 0x080080000000, row0 := 0, rows := 0, rowBytes := 4, other := 0, stride := 4 }) = false := by decide
theorem test_wf_part_end : Instr.wf (.pagePartRead { win := 0x080080000000, row0 := 0, rows := 1, rowBytes := 4, other := 2 ^ 48, stride := 4 }) = false := by decide
theorem test_wf_part_pier : Instr.wf (.pagePartWrite { win := 0x080080000000, row0 := 0, rows := 1, rowBytes := 4, other := 0, stride := 4, pier := some 2048 }) = false := by decide
theorem test_wf_part_data : Instr.wf (.pagePartWrite { win := 0x080080000000, row0 := 0, rows := 1, rowBytes := 4, other := 0, stride := 4, data := [[]] }) = false := by decide
theorem test_wf_lease : Instr.wf (.lease 0x080080000000 (2 ^ 48)) = false := by decide
theorem test_wf_page : Instr.wf (.spillLands 2097152) = false := by decide
theorem test_wf_key : Instr.wf (.patrolScrub (2 ^ 48)) = false := by decide
theorem test_wf_processor : Instr.wf (.watchdogExpiry 16 0) = false := by decide
theorem test_wf_trace : Instr.wf (.traceFrozen 64) = false := by decide
theorem test_wf_cluster : Instr.wf (.roReading 68 0) = false := by decide

/-! ### Packets and states -/

/-- The session that the test states have open. -/
def ses : Session := { id := 7, key := natLE 32 1, idleS := 60, notifyIp := 0, notifyPort := 0 }

/-- A ready pier with a session, both Ethernet ports up, 256 GiB of DDR5, a region over its first MiB, and core and cluster
slot 0 bound. -/
def live : State := { State.reset with
  sys := { boot := .ready, resetN := true }
  ddrBytes := 256 * GiB
  ddrSet := [0, 1, 2, 3]
  fp := { coreBind := [(0, 0)], clusterBind := [(0, 0)] }
  pierId := 0
  host := { session := some ses, eth := [(0, { up := true }), (1, { up := true })]
            regions := [(2, { base := 0x010000000000, len := 0x100000, perm := 3, rkey := 9 })] } }

/-- A packet of the session with a block of `n` bytes, before its tag. -/
def packet (n v : Nat) : HostCmd := { session := 7, seq := 1, cmdId := 5, plen := n, block := natLE n v }

/-- A packet with its tag. -/
def signed (s : State) (oc : Nat) (c : HostCmd) (x : Session) : HostCmd := { c with tag := s.wantTag c oc x.key }

/-- All that a tagged packet needs beside its tag. -/
def canRun (s : State) (oc : Nat) (c : HostCmd) (x : Session) : Bool :=
  s.host.session == some x && x.id != 0 && c.session == x.id && s.hears c.port && c.version == 1 &&
  c.block.length == (if c.indirect then 8 else c.plen) && c.cmdId != EVENT_ID && (s.logOf c.cmdId).isNone &&
  (match x.seq with | some n => decide (n < c.seq) | none => true) && (c.pier == 0xFFF || c.pier == s.pierId) &&
  !((headerClamps hostItem c oc).any State.isNull) && !c.indirect && s.stageOf oc c.session == .run && decide (s.pendingCount < 1024)

theorem runs_signed (s : State) (oc : Nat) (c : HostCmd) (x : Session) (h : canRun s oc c x = true) : s.Runs oc (signed s oc c x) := by
  simp only [canRun, Bool.and_eq_true, beq_iff_eq, bne_iff_ne, ne_eq, decide_eq_true_eq, Bool.or_eq_true, Bool.not_eq_true', Option.isNone_iff_eq_none] at h
  obtain ⟨⟨⟨⟨⟨⟨⟨⟨⟨⟨⟨⟨⟨h1, h2⟩, h3⟩, h4⟩, h5⟩, h6⟩, h7⟩, h8⟩, h9⟩, h10⟩, h11⟩, h12⟩, h13⟩, h14⟩ := h
  have hi : (signed s oc c x).indirect = c.indirect := rfl
  have hw : ∀ k, s.wantTag (signed s oc c x) oc k = s.wantTag c oc k := fun _ => rfl
  have ha : s.checkAuth (signed s oc c x) oc = .passed := by
    have e : (signed s oc c x).session = x.id := h3
    have t : (signed s oc c x).tag = s.wantTag c oc x.key := rfl
    simp [State.checkAuth, e, h2, h1, hw, t]
  have hq : s.checkSeq (signed s oc c x) false = true := by
    have e : (signed s oc c x).session = x.id := h3
    have t : (signed s oc c x).seq = c.seq := rfl
    simp only [State.checkSeq, e, beq_iff_eq, h2, if_false, h1, t]
    cases hx : x.seq <;> simp_all
  refine ⟨h4, ?_, h10, h11, ?_, h13, h14⟩
  · have e1 : (signed s oc c x).version = 1 := h5
    have e2 : (signed s oc c x).block.length = (if (signed s oc c x).indirect then 8 else (signed s oc c x).plen) := h6
    have e3 : (signed s oc c x).cmdId = c.cmdId := rfl
    simp [State.checks, e1, e2, ha, e3, h7, h8, hq]
  · intro hh
    rw [hi, h12] at hh; cases hh

/-- Whether an outcome is a state. -/
def nextIs (o : Host.Outcome State Fault Refusal) (t : State) : Bool := match o with | .next u => decide (u = t) | _ => false

theorem eq_of_nextIs {o : Host.Outcome State Fault Refusal} {t : State} (h : nextIs o t = true) : o = .next t := by
  unfold nextIs at h; split at h <;> simp_all

/-! ### The machine -/

theorem test_meets_tick : live.pending = [] ∧ live.on = true ∧ State.reset.pending = [] ∧ State.reset.on = false := by decide +kernel

theorem test_meets_off : State.reset.on = false ∧ Instr.ofPins (.keepalive {}) = false := by decide

/-- A command that answers a next state: the rise of RESET_N after reset. -/
def risen : State := { State.reset with sys := { boot := .testing, resetN := true, slotId := 3 } }

theorem test_meets_next : exec (.resetNRise 3) State.reset = .next risen := eq_of_nextIs (by decide +kernel)

/-- A module whose owner is bound and whose second key slot is revoked. -/
def owned : State := { State.reset with fuses := { owner := some 5, revoked := 2 } }

theorem test_meets_owner : owned.fuses.owner = some 5 ∧ owned.fuses.revoked.testBit 1 = true := by decide +kernel

theorem test_meets_stage : State.reset.sys.boot = .held ∧ risen.sys.boot = .testing ∧ risen.sys.boot ≠ State.reset.sys.boot := by decide +kernel

theorem test_meets_stage_off : exec .pwrEnFall live = .next { sys := { live.sysAt .off with pwrEn := false, pwrGood := false, retained := false }, fuses := live.fuses } ∧ live.sys.boot ≠ .off :=
  ⟨eq_of_nextIs (by decide +kernel), by decide⟩

theorem test_meets_cold : State.reset.Cold ∧ State.reset.sys.boot = .held := by
  simp only [State.Cold, State.Empty]
  decide +kernel

theorem test_meets_cold_next : step State.reset = .next State.reset := eq_of_nextIs (by decide +kernel)

theorem test_meets_cold_step : State.Cold { State.reset with pending := [.pwrEnFall] } := by
  simp only [State.Cold, State.Empty]
  decide +kernel

theorem test_meets_calm : live.fp.units = live.fp.units ∧ live.host.slotWrites = [] ∧ live.host.ops = [] ∧ live.host.waits = [] ∧ live.falsework.reshardDone = [] ∧ live.job.ending = none := by decide +kernel

/-! ### Sessions, regions, rings and queue pairs -/

theorem test_meets_hello : live.Runs OC_HELLO { cmdId := 5 } := by
  simp only [State.Runs]
  decide +kernel

theorem test_meets_net_config : let s := live; let c := signed s OC_NET_CONFIG (packet 64 0x40000000000000000000000000000000000000000000000) ses
    s.Runs OC_NET_CONFIG c := runs_signed _ _ _ _ (by decide +kernel)

/-- An OPEN block: binds its key, 60 s of idle time. The key's exponent is 1, so that its signature is the encoding itself. -/
def openBlock : Nat := 0x100000000000000000000000000000000000000000000000000000000000000000000000000000000000000000000000000000000000000000000000000000000000000000000000000000000000000000000000000000000000000000000000000000000000000000000000000000000000000000000000000000000000000000000000000000000000000000000000000000000000000000000000000000000000000000000000000000000000000000000000000000000000000000000000000000000000000000000000000000000000000000000000000000000000000000000000000000000000000000000000000000000000000000000000000000000000000000000000000000000000000000000000000000000000000000000000000000000000000000000000000000000000000000000000000000000000000000000000000000000000000000000000000000000000000000000000000000000000000000000000000000000000000000000000000000000000000000000800100000080780000000000000000000000000000000000000000000000000000000000000000000000bc6bd914b7a1e3e17940449a528e6f99c30ac00441e8d5911626607a48bf03d2ea27fbe79611a62fb4923cdbd1d9e88a927bbc5025a368f95d476c95b0d1edfeb6f71c04e41def696f2b196d4684e10b22ee185d22f1f996f6de93b917b5229c598d2f955e79fbaf6955cae395b8e6dda06226ba61df61d87745fc07085d6f4a4f2a36772fabd117a9c6a9e68ef2289789c2d5bec78af9b3a3aaf4da342a7fa02ac44a8b9e0c2db68dc3fcd5a1a82aab8c174ed3d3814db81da3b59dfd6644b88c717440ef514bccc53e162cd30de7d905f5bcf3963decff76a506be16f6da7deb7195fdfed9eeb8ebc8d39722dc99fe71365d6a0064118f73a9c29ab9e5c799de1fd8fbac941e5fd69dceb42fa85dd1a156b8766ae052016550f6636cbb3056dc5c5e4a47dab9267916c810323ee086cd6609f4bd0182397fe9acc58335eb4b9d146b373ca12da6490233fb40a52769e0da5aef4d337d28fd4a55305d0d9c6228052067e29812784c80696a866aad623750bf961d903119fdb39dc830d8392a

/-- An OPEN packet: outside a session, its tag is 0. -/
def openPacket (v : Nat) : HostCmd := { cmdId := 5, plen := 809, block := natLE 809 v }

/-- A pier with no session and a challenge drawn. -/
def challenged : State := { live with host := { live.host with session := none, challenge := some (natLE 32 1, 0) } }

theorem test_meets_open : challenged.Runs OC_OPEN (openPacket openBlock) ∧ ((openPacket openBlock).seen OC_OPEN challenged).Fits (challenged.begin OC_OPEN (openPacket openBlock)).openFields ∧ challenged.host.session = none := by
  simp only [State.Runs, Cmd.Fits]
  decide +kernel

theorem test_meets_open_allowed : (((challenged.begin OC_OPEN (openPacket openBlock)).told ((openPacket openBlock).seen OC_OPEN challenged)
    (challenged.begin OC_OPEN (openPacket openBlock)).openFields).openAllowed (natLE 809 openBlock)) = true := by decide +kernel

theorem test_meets_open_busy : let c := openPacket 0x140000000000000000000000000000000000000000000000000000000000000000000000000000000000000000000000000000000000000000000000000000000000000000000000000000000000000000000000000000000000000000000000000000000000000000000000000000000000000000000000000000000000000000000000000000000000000000000000000000000000000000000000000000000000000000000000000000000000000000000000000000000000000000000000000000000000000000000000000000000000000000000000000000000000000000000000000000000000000000000000000000000000000000000000000000000000000000000000000000000000000000000000000000000000000000000000000000000000000000000000000000000000000000000000000000000000000000000000000000000000000000000000000000000000000000000000000000000000000000000000000000000000000000000000000000000000000000000000000000000000000000000000000000000000000000000000000000000000000000000000; live.Runs OC_OPEN c ∧ (c.seen OC_OPEN live).Fits (live.begin OC_OPEN c).openFields ∧ live.host.session.isSome = true ∧ bitOf (c.seen OC_OPEN live).v 3366 = false := by
  simp only [State.Runs, Cmd.Fits]
  decide +kernel

theorem test_meets_open_refused : let s : State := { live with host := { live.host with session := none } }; let c := openPacket 0x1c200000000000000000000000000000000000000000000000000000000000000000000000000000000000000000000000000000000000000000000000000000000000000000000000000000000000000000000000000000000000000000000000000000000000000000000000000000000000000000000000000000000000000000000000000000000000000000000000000000000000000000000000000000000000000000000000000000000000000000000000000000000000000000000000000000000000000000000000000000000000000000000000000000000000000000000000000000000000000000000000000000000000000000000000000000000000000000000000000000000000000000000000000000000000000000000000000000000000000000000000000000000000000000000000000000000000000000000000000000000000000000000000000000000000000000000000000000000000000000000000000000000000000000000000000000000000000000000000000000000000000000000000000000000000000000000000000000000000000000000000; s.Runs OC_OPEN c ∧ (c.seen OC_OPEN s).Fits (s.begin OC_OPEN c).openFields ∧
    ((s.begin OC_OPEN c).told (c.seen OC_OPEN s) (s.begin OC_OPEN c).openFields).openAllowed c.block = false := by
  simp only [State.Runs, Cmd.Fits]
  decide +kernel

theorem test_meets_close : let s := live; let c := signed s OC_CLOSE (packet 0 0x0) ses
    s.Runs OC_CLOSE c := runs_signed _ _ _ _ (by decide +kernel)

theorem test_meets_keepalive : let s := live; let c := signed s OC_KEEPALIVE (packet 0 0x0) ses
    s.Runs OC_KEEPALIVE c := runs_signed _ _ _ _ (by decide +kernel)

theorem test_meets_idle : live.on = true ∧ live.host.session.isSome = true := by decide +kernel

theorem test_meets_region_open : let s := live; let c := signed s OC_REGION_OPEN (packet 16 0x1000000000000000005000000000000) ses; let x := c.seen OC_REGION_OPEN s; let b := s.begin OC_REGION_OPEN c
    s.Runs OC_REGION_OPEN c ∧
    x.Fits (b.regionFields (fld x.v 127 80)) ∧
    s.freeRegion = some 3 := by
  refine ⟨runs_signed _ _ _ _ (by decide +kernel), ?_⟩
  simp only [Cmd.Fits]
  decide +kernel

/-- Every region index in use. -/
def full : State := { live with host := { live.host with regions := (List.range 256).map fun i => (i, { base := 0, len := 0, perm := 0, rkey := 0 }) } }

theorem test_meets_region_full : let s := full; let c := signed s OC_REGION_OPEN (packet 16 0x1000000000000000005000000000000) ses; let x := c.seen OC_REGION_OPEN s; let b := s.begin OC_REGION_OPEN c
    s.Runs OC_REGION_OPEN c ∧
    x.Fits (b.regionFields (fld x.v 127 80)) ∧
    s.freeRegion = none := by
  refine ⟨runs_signed _ _ _ _ (by decide +kernel), ?_⟩
  simp only [Cmd.Fits]
  decide +kernel

theorem test_meets_region_close : let s := live; let c := signed s OC_REGION_CLOSE (packet 16 0x2000000000000000000000000000000) ses; let x := c.seen OC_REGION_CLOSE s; let b := s.begin OC_REGION_CLOSE c
    s.Runs OC_REGION_CLOSE c ∧
    x.Fits b.regionCloseFields := by
  refine ⟨runs_signed _ _ _ _ (by decide +kernel), ?_⟩
  simp only [Cmd.Fits]
  decide +kernel

theorem test_meets_ring_setup : let s := live; let c := signed s OC_RING_SETUP (packet 16 0x4c000000000000000000000000000000) ses; let x := c.seen OC_RING_SETUP s
    s.Runs OC_RING_SETUP c ∧
    x.Fits State.ringFields ∧
    s.host.log.any (fun r => r.ring && r.status.isNone) = false ∧
    4 ≤ fld x.v 127 124 ∧ fld x.v 127 124 ≤ 12 := by
  refine ⟨runs_signed _ _ _ _ (by decide +kernel), ?_⟩
  simp only [Cmd.Fits]
  decide +kernel

/-- A ring command is pending. -/
def ringBusy : State := { live with host := { live.host with log := [{ cmdId := 4, seq := 0, opcode := OC_SYNC_WAIT, ring := true }] } }

theorem test_meets_ring_busy : let s := ringBusy; let c := signed s OC_RING_SETUP (packet 16 0x4c000000000000000000000000000000) ses; let x := c.seen OC_RING_SETUP s
    s.Runs OC_RING_SETUP c ∧
    x.Fits State.ringFields ∧
    s.host.log.any (fun r => r.ring && r.status.isNone) = true := by
  refine ⟨runs_signed _ _ _ _ (by decide +kernel), ?_⟩
  simp only [Cmd.Fits]
  decide +kernel

/-- Rings of 16 entries, with one submission. -/
def ringed : State := { live with mem := [(RING_AREA, 1#8)], host := { live.host with ring := some (4, 4) } }

theorem test_meets_tail : ringed.on = true ∧ ringed.host.ring = some (4, 4) ∧ (16 % 2 ^ 32 + 2 ^ 32 - ringed.sqHead) % 2 ^ 32 ≤ 2 ^ 4 ∧ live.on = true ∧ live.host.ring = none := by decide +kernel

theorem test_meets_entry : ringed.computing = true ∧ ringed.sqHead ≠ ringed.sqTail ∧ ringed.pendingCount < ringed.cqFree := by decide +kernel

theorem test_meets_no_entry : State.reset.computing = false ∧ live.host.ring = none := by decide +kernel

theorem test_meets_qp : let s := live; let c := signed s OC_QP_CONNECT (packet 32 0x0) ses
    s.Runs OC_QP_CONNECT c ∧
    (s.host.qps.filter fun q => q.port = c.port).length < 16 := 
  ⟨runs_signed _ _ _ _ (by decide +kernel), by decide +kernel⟩

/-- Sixteen queue pairs on E0, the first one cut by congestion. -/
def paired : State := { live with host := { live.host with qps := { port := 0, qpn := 1, hostQpn := 2, rate := 1, cut := true } :: List.replicate 15 { port := 0, qpn := 3, hostQpn := 2 } } }

theorem test_meets_qp_full : let s := paired; let c := signed s OC_QP_CONNECT (packet 32 0x0) ses
    s.Runs OC_QP_CONNECT c ∧
    16 ≤ (s.host.qps.filter fun q => q.port = c.port).length := 
  ⟨runs_signed _ _ _ _ (by decide +kernel), by decide +kernel⟩

theorem test_meets_rate : paired.hears 0 = true ∧ paired.on = true ∧ paired.dieRuns 4 = true ∧ paired.host.qps[0]? = some { port := 0, qpn := 1, hostQpn := 2, rate := 1, cut := true } := by decide +kernel

/-! ### Sync objects and reads -/

theorem test_meets_signal : let s := live; let c := signed s OC_SYNC_SIGNAL (packet 16 0xffff0000000000010000000000000000) ses; let x := c.seen OC_SYNC_SIGNAL s; let b := s.begin OC_SYNC_SIGNAL c
    s.Runs OC_SYNC_SIGNAL c ∧
    x.Fits (b.signalFields x.v) ∧
    s.syncCount (fld x.v 127 112) + max 1 (fld x.v 95 64) ≤ 0xFFFFFFFF := by
  refine ⟨runs_signed _ _ _ _ (by decide +kernel), ?_⟩
  simp only [Cmd.Fits]
  decide +kernel

/-- Object 1 at its maximum. -/
def atMax : State := { live with mem := [(SYNC_BASE + 28, 255#8), (SYNC_BASE + 29, 255#8), (SYNC_BASE + 30, 255#8), (SYNC_BASE + 31, 255#8)] }

theorem test_meets_signal_overflow : let s := atMax; let c := signed s OC_SYNC_SIGNAL (packet 16 0x10000000000010000000000000000) ses; let x := c.seen OC_SYNC_SIGNAL s; let b := s.begin OC_SYNC_SIGNAL c
    s.Runs OC_SYNC_SIGNAL c ∧
    x.Fits (b.signalFields x.v) ∧
    0xFFFFFFFF < s.syncCount (fld x.v 127 112) + max 1 (fld x.v 95 64) := by
  refine ⟨runs_signed _ _ _ _ (by decide +kernel), ?_⟩
  simp only [Cmd.Fits]
  decide +kernel

theorem test_meets_wait_done : let s := live; let c := signed s OC_SYNC_WAIT (packet 16 0x10000000000000000000000000000) ses; let x := c.seen OC_SYNC_WAIT s
    s.Runs OC_SYNC_WAIT c ∧
    x.Fits State.waitFields ∧
    fld x.v 95 64 ≤ s.syncCount (fld x.v 127 112) ∧
    s.sys.computeReset = false := by
  refine ⟨runs_signed _ _ _ _ (by decide +kernel), ?_⟩
  simp only [Cmd.Fits]
  decide +kernel

theorem test_meets_wait : let s := live; let c := signed s OC_SYNC_WAIT (packet 16 0x10000000000010000000000000000) ses; let x := c.seen OC_SYNC_WAIT s
    s.Runs OC_SYNC_WAIT c ∧
    x.Fits State.waitFields ∧
    s.syncCount (fld x.v 127 112) < fld x.v 95 64 ∧
    s.host.waits.length < 256 := by
  refine ⟨runs_signed _ _ _ _ (by decide +kernel), ?_⟩
  simp only [Cmd.Fits]
  decide +kernel

/-- 256 host waits, each of a pending command. -/
def waiting : State := { live with host := { live.host with
  waits := (List.range 256).map fun i => { cmdId := 100 + i, id := 1, value := 1, timeoutMs := 1 }
  log := (List.range 256).map fun i => { cmdId := 100 + i, seq := 0, opcode := OC_SYNC_WAIT } } }

theorem test_meets_wait_full : let s := waiting; let c := signed s OC_SYNC_WAIT (packet 16 0x10000000000010000000000000000) ses; let x := c.seen OC_SYNC_WAIT s
    s.Runs OC_SYNC_WAIT c ∧
    x.Fits State.waitFields ∧
    s.syncCount (fld x.v 127 112) < fld x.v 95 64 ∧
    256 ≤ s.host.waits.length := by
  refine ⟨runs_signed _ _ _ _ (by decide +kernel), ?_⟩
  simp only [Cmd.Fits]
  decide +kernel

theorem test_meets_wait_timeout : waiting.on = true ∧ waiting.host.waits.find? (fun w => w.cmdId == 355) = some { cmdId := 355, id := 1, value := 1, timeoutMs := 1 } ∧
    waiting.host.log.any (fun q => q.cmdId == 355 && q.status == none) = true ∧ 355 ≠ EVENT_ID := by decide +kernel

theorem test_meets_floorplan : let s := live; let c := signed s OC_FLOORPLAN_READ (packet 16 0x1000000000000000000000000000000) ses; let x := c.seen OC_FLOORPLAN_READ s; let b := s.begin OC_FLOORPLAN_READ c
    s.Runs OC_FLOORPLAN_READ c ∧
    x.Fits (b.destFields 21144) := by
  refine ⟨runs_signed _ _ _ _ (by decide +kernel), ?_⟩
  simp only [Cmd.Fits]
  decide +kernel

/-- Command 4 completed with a clamp. -/
def logged : State := { live with
  clamps := [(4, { kind := 0, clamp := 1, widthM1 := 0, bitOff := 0 })]
  host := { live.host with log := [{ cmdId := 4, seq := 0, opcode := OC_ABORT, status := some ST_CLAMPED, clamps := 1 }] } }

theorem test_meets_clamp_read : let s := logged; let c := signed s OC_CLAMP_READ (packet 16 0x4010000000000000000010000) ses; let x := c.seen OC_CLAMP_READ s; let b := s.begin OC_CLAMP_READ c
    s.Runs OC_CLAMP_READ c ∧
    x.Fits (b.clampReadFields x.v) := by
  refine ⟨runs_signed _ _ _ _ (by decide +kernel), ?_⟩
  simp only [Cmd.Fits]
  decide +kernel

theorem test_meets_poison_read : let s := live; let c := signed s OC_POISON_READ (packet 16 0x1000000000000000000000000000000) ses; let x := c.seen OC_POISON_READ s; let b := s.begin OC_POISON_READ c
    s.Runs OC_POISON_READ c ∧
    x.Fits (b.destFields s.poisonBytes.length) := by
  refine ⟨runs_signed _ _ _ _ (by decide +kernel), ?_⟩
  simp only [Cmd.Fits]
  decide +kernel

theorem test_meets_status : let s := logged; let c := signed s OC_STATUS_QUERY (packet 16 0x4000000000000000000000000) ses; let x := c.seen OC_STATUS_QUERY s; let b := s.begin OC_STATUS_QUERY c
    s.Runs OC_STATUS_QUERY c ∧
    x.Fits b.statusFields ∧
    ((b.told x b.statusFields).logOf (fld x.v 127 96)).isSome = true := by
  refine ⟨runs_signed _ _ _ _ (by decide +kernel), ?_⟩
  simp only [Cmd.Fits]
  decide +kernel

theorem test_meets_counter_read : let s := live; let c := signed s OC_COUNTER_READ (packet 16 0xa000000010001000000000000000000) ses; let x := c.seen OC_COUNTER_READ s; let b := s.begin OC_COUNTER_READ c
    s.Runs OC_COUNTER_READ c ∧
    x.Fits (b.counterFields x.v) ∧
    bitOf x.v 87 = false := by
  refine ⟨runs_signed _ _ _ _ (by decide +kernel), ?_⟩
  simp only [Cmd.Fits]
  decide +kernel

theorem test_meets_counter_clear : let s := live; let c := signed s OC_COUNTER_READ (packet 16 0x6000f00018001000000000000000000) ses; let x := c.seen OC_COUNTER_READ s; let b := s.begin OC_COUNTER_READ c
    s.Runs OC_COUNTER_READ c ∧
    x.Fits (b.counterFields x.v) ∧
    bitOf x.v 87 = true := by
  refine ⟨runs_signed _ _ _ _ (by decide +kernel), ?_⟩
  simp only [Cmd.Fits]
  decide +kernel

/-! ### Memory -/

theorem test_meets_memory : live.mapped 0x010000000004 = true ∧ (∀ b ∈ [0x010000000004, 0x010000000005, 0x010000000006, 0x010000000007], b / 4 = 0x010000000004 / 4 ∧ live.mapped b = true) ∧ (0x010000000005 % 4 + 3 ≤ 4) ∧ (0x010000000004 % 4 = 0) := by decide +kernel

theorem test_meets_memory_hole : ∀ i < 1 + 4, live.mapped (0x060000000000 / 4 * 4 + i) = false := by decide +kernel

theorem test_word_merges : ((live.write 0x010000000005 [(7#8, false), (8#8, false)]).byte 0x010000000006, (live.write 0x010000000005 [(7#8, false)]).byte 0x010000000004) =
    ((8#8, false), (0#8, false)) := by decide +kernel

/-- A unit of DDR5 with one bad data bit, and one that cannot be corrected. -/
def worn : State := { live with ecc := [(0x010000000000, BitVec.ofNat 8 (eccColumns.getD 0 0)), (0x010000000004, BitVec.ofNat 8 (eccColumns.getD 0 0) ^^^ BitVec.ofNat 8 (eccColumns.getD 1 0))] }

theorem test_meets_scrub : worn.computing = true ∧ worn.mapped (addrOf worn.localGib 0x010000000000) = true ∧ syndromeOf (mget worn.ecc 0x010000000000) = .dataBit 0 ∧
    worn.mapped (addrOf worn.localGib 0x010000000004) = true ∧ syndromeOf (mget worn.ecc 0x010000000004) = .uncorrected ∧
    syndromeOf (mget worn.ecc 0x010000000008) = .clean := by decide +kernel
/-! ### Firmware and the wear log -/

/-- Bring-up with SEC alone: no bundle yet. -/
def early : State := { live with sys := { boot := .linked, resetN := true } }

theorem test_meets_fw_begin : let s := early; let c := signed s OC_FW_LOAD (packet 16 0x8000000000000000000000000000) ses; let x := c.seen OC_FW_LOAD s
    s.Runs OC_FW_LOAD c ∧
    rowField 127 126 0 2 c s = true ∧
    x.Fits State.fwBeginFields ∧
    s.sys.boot = .linked := by
  refine ⟨runs_signed _ _ _ _ (by decide +kernel), ?_⟩
  simp only [Cmd.Fits]
  decide +kernel

theorem test_meets_fw_begin_late : let s := { live with sys := { boot := .training, resetN := true } }; let c := signed s OC_FW_LOAD (packet 16 0x20000000000000000000000000000000) ses; let x := c.seen OC_FW_LOAD s
    s.Runs OC_FW_LOAD c ∧
    rowField 127 126 0 2 c s = true ∧
    x.Fits State.fwBeginFields ∧
    s.sys.boot ≠ .linked := by
  refine ⟨runs_signed _ _ _ _ (by decide +kernel), ?_⟩
  simp only [Cmd.Fits]
  decide +kernel

/-- One chunk of two is staged. -/
def staged : State := { early with fw := { staging := some (8177, [(0, [])]) } }

theorem test_meets_fw_data : let s := staged; let c := signed s OC_FW_LOAD (packet 17 0x40010000000000000000000000000000) ses; let x := c.seen OC_FW_LOAD s
    s.Runs OC_FW_LOAD c ∧ rowField 127 126 1 2 c s = true ∧ ({ x with block := x.block.take 16 } : Cmd).Fits (s.begin OC_FW_LOAD c).fwDataFields ∧ s.fw.staging = some (8177, [(0, [])]) := by
  simp only [State.Runs, Cmd.Fits]
  decide +kernel

theorem test_meets_fw_missing : let s := staged; let c := signed s OC_FW_LOAD (packet 16 0x80000000000000000000000000000000) ses; let x := c.seen OC_FW_LOAD s
    s.Runs OC_FW_LOAD c ∧
    rowField 127 126 2 2 c s = true ∧
    x.Fits State.fwCommitFields ∧
    State.missingChunks (8177, [(0, [])]) ≠ [] := by
  refine ⟨runs_signed _ _ _ _ (by decide +kernel), ?_⟩
  simp only [Cmd.Fits]
  decide +kernel

/-- A bundle of one byte is staged whole. -/
def stagedBad : State := { early with fw := { staging := some (1, [(0, [1#8])]) } }

theorem test_meets_fw_bad : let s := stagedBad; let c := signed s OC_FW_LOAD (packet 16 0x80000000000000000000000000000000) ses; let x := c.seen OC_FW_LOAD s
    s.Runs OC_FW_LOAD c ∧
    rowField 127 126 2 2 c s = true ∧
    x.Fits State.fwCommitFields ∧
    State.missingChunks (1, [(0, [1#8])]) = [] ∧
    (checkBundle s.fuses (State.stagedBytes (1, [(0, [1#8])]))).2 = none := by
  refine ⟨runs_signed _ _ _ _ (by decide +kernel), ?_⟩
  simp only [Cmd.Fits]
  decide +kernel

theorem test_meets_fw_periods : let s := live; let c := signed s OC_FW_REPLACE (packet 16 0x20000000000000000001388400000000) ses; let x := c.seen OC_FW_REPLACE s; let b := s.begin OC_FW_REPLACE c
    s.Runs OC_FW_REPLACE c ∧
    rowField 34 34 1 1 c s = true ∧
    x.Fits (b.replaceFields x.v) := by
  refine ⟨runs_signed _ _ _ _ (by decide +kernel), ?_⟩
  simp only [Cmd.Fits]
  decide +kernel

/-- A replacement of the link managers' image in probation, and E0's first processor with two expiries. -/
def probation : State := { live with fw := {
  bundle := some { version := 1, iface := 0, images := [] }
  replace := some { cmdId := 4, image := { cls := 3, version := 2, wdogMs := 1, crc := 0, bytes := [] }, first := (UK_ABUT, 3) } } }

theorem test_meets_probation : probation.on = true ∧ probation.fw.replace.isSome = true ∧ probation.watched UK_ABUT 3 = true ∧ probation.watched 0 0 = false := by decide +kernel

/-- A processor with two expiries, and no replacement. -/
def expired : State := { live with
  fw := { bundle := some { version := 1, iface := 0, images := [] }, expiries := [((UK_CCP, 0), [0, 0])] }, job := { running := true } }

theorem test_meets_expiries : expired.watched UK_CCP 0 = true ∧ expired.fw.replace = none ∧ 2 ≤ ((aget expired.fw.expiries (UK_CCP, 0) []).filter fun t => decide (expired.aclk - t ≤ 600 * SECOND)).length ∧
    expired.watched UK_CCP 1 = true ∧ ((aget expired.fw.expiries (UK_CCP, 1) []).filter fun t => decide (expired.aclk - t ≤ 600 * SECOND)).length < 2 ∧ expired.job.running = true := by decide +kernel

theorem test_meets_wear_read : let s := live; let c := signed s OC_WEARLOG (packet 16 0x800000000000000200000000000000) ses; let x := c.seen OC_WEARLOG s; let b := s.begin OC_WEARLOG c
    s.Runs OC_WEARLOG c ∧
    rowField 127 127 0 1 c s = true ∧
    x.Fits (b.wearReadFields x.v) := by
  refine ⟨runs_signed _ _ _ _ (by decide +kernel), ?_⟩
  simp only [Cmd.Fits]
  decide +kernel

theorem test_meets_wear_back_late : let s := { live with fw := { handedBack := true } }; let c := signed s OC_WEARLOG (packet 16 0x80800000000000000e00000000000000) ses; let x := c.seen OC_WEARLOG s; let b := s.begin OC_WEARLOG c
    s.Runs OC_WEARLOG c ∧
    rowField 127 127 1 1 c s = true ∧
    x.Fits (b.handBackFields x.v) ∧
    s.fw.handedBack = true := by
  refine ⟨runs_signed _ _ _ _ (by decide +kernel), ?_⟩
  simp only [Cmd.Fits]
  decide +kernel

theorem test_meets_wear_back_other : let s := { live with fuses := { serial := 1 } }; let c := signed s OC_WEARLOG (packet 16 0x80800000000000000e00000000000000) ses; let x := c.seen OC_WEARLOG s; let b := s.begin OC_WEARLOG c
    s.Runs OC_WEARLOG c ∧
    rowField 127 127 1 1 c s = true ∧
    x.Fits (b.handBackFields x.v) ∧
    s.plan.loaded = false ∧
    s.fw.handedBack = false ∧
    fld (leNat ((s.data (fld x.v 126 79) (fld x.v 78 51)).take 64)) 511 448 ≠ s.fuses.serial % 2 ^ 64 := by
  refine ⟨runs_signed _ _ _ _ (by decide +kernel), ?_⟩
  simp only [Cmd.Fits]
  decide +kernel

theorem test_meets_wear_full : (List.replicate 65536 ({ kind := 0, index := 0, event := WE_TREND, reason := 0, start := 1, step := 0, value := 0 } : WearRec)).length = 65536 := List.length_replicate

/-! ### RDMA and Ethernet -/

theorem test_meets_rdma : paired.hears 0 = true ∧ paired.qpOf 0 9 = none ∧ (paired.qpOf 0 1).isSome = true ∧ paired.regionFor 2 0x010000000000 8 1 = none ∧ paired.regionFor 1 0x0100000FFFFF 9 2 = none ∧
    (paired.regionFor 2 0x0100000FFFFC 9 4).isSome = true ∧ (paired.regionFor 1 0x010000000000 9 4).isSome = true ∧ paired.rdmaHeld 0x010000000000 = false ∧
    (∀ i < 4, paired.hostWrites (0x0100000FFFFC + i) = true) ∧ paired.host.ring = none := by decide +kernel

/-- A compute reset stands, with a region in HBM. -/
def resetting : State := { paired with
  sys := { paired.sys with computeReset := true, computeResetN := false }
  host := { paired.host with regions := [(2, { base := 0, len := 4096, perm := 3, rkey := 9 })] } }

theorem test_meets_rdma_held : resetting.hears 0 = true ∧ (resetting.regionFor 2 0 9 4).isSome = true ∧ (resetting.regionFor 1 0 9 4).isSome = true ∧ resetting.rdmaHeld 0 = true := by decide +kernel

/-- E0 with static addresses and a hundred echoes in the present second; E1 down. -/
def networked : State := { live with host := { live.host with eth := [(0, { up := true, v6 := 5, static6 := true, static4 := true, echoes := List.replicate 100 0 })] } }

theorem test_meets_eth : live.hears 1 = true ∧ ((live.eth 1).echoes.filter fun t => decide (live.aclk - t < SECOND)).length < 100 ∧ (live.eth 1).static6 = false ∧ (live.eth 1).static4 = false ∧
    networked.hears 0 = true ∧ 100 ≤ ((networked.eth 0).echoes.filter fun t => decide (networked.aclk - t < SECOND)).length ∧ (networked.eth 0).static6 = true ∧ (networked.eth 0).static4 = true ∧
    (5 ≠ 0 ∧ 5 = (networked.eth 0).v6) := by decide +kernel

theorem test_meets_eth_down : networked.on = true ∧ networked.dieRuns 5 = true ∧ (networked.eth 1).up = false ∧ networked.unitGood UK_ETH 1 = true ∧ (networked.eth 0).up = true ∧ networked.dieRuns 4 = true := by decide +kernel

/-! ### Plans, jobs and spans -/

/-- A plan of this pier alone is loaded. -/
def planned : State := { live with plan := { loaded := true, members := [0], piers := [0] }, fuses := { owner := some 1 } }

/-- Its job runs. -/
def working : State := { planned with job := { running := true, cmdId := some 4 }, host := { planned.host with log := [{ cmdId := 4, seq := 0, opcode := OC_JOB_START }] } }

theorem test_meets_plan_load : let s := live; let c := signed s OC_PLAN_LOAD (packet 16 0x1000000000000000000000000000000) ses; let x := c.seen OC_PLAN_LOAD s; let b := s.begin OC_PLAN_LOAD c
    s.Runs OC_PLAN_LOAD c ∧
    s.plan.loaded = false ∧
    x.Fits b.planLoadFields := by
  refine ⟨runs_signed _ _ _ _ (by decide +kernel), ?_⟩
  simp only [Cmd.Fits]
  decide +kernel

theorem test_meets_plan_loaded : let s := planned; let c := signed s OC_PLAN_LOAD (packet 16 0x1000000000000000000000000000000) ses
    s.Runs OC_PLAN_LOAD c ∧
    s.plan.loaded = true := 
  ⟨runs_signed _ _ _ _ (by decide +kernel), by decide +kernel⟩

theorem test_meets_update_none : let s := live; let c := signed s OC_PLAN_UPDATE (packet 16 0x1000000000000001000000000000000) ses
    s.Runs OC_PLAN_UPDATE c ∧
    s.plan.loaded = false := 
  ⟨runs_signed _ _ _ _ (by decide +kernel), by decide +kernel⟩

theorem test_meets_update : let s := planned; let c := signed s OC_PLAN_UPDATE (packet 16 0x1000000000000001000000000000000) ses; let x := c.seen OC_PLAN_UPDATE s; let b := s.begin OC_PLAN_UPDATE c
    s.Runs OC_PLAN_UPDATE c ∧
    s.plan.loaded = true ∧
    x.Fits (b.listFields x) ∧
    s.job.running = false := by
  refine ⟨runs_signed _ _ _ _ (by decide +kernel), ?_⟩
  simp only [Cmd.Fits]
  decide +kernel

theorem test_meets_update_later : let s := working; let c := signed s OC_PLAN_UPDATE (packet 16 0x1000000000000001000000000000000) ses; let x := c.seen OC_PLAN_UPDATE s; let b := s.begin OC_PLAN_UPDATE c
    s.Runs OC_PLAN_UPDATE c ∧
    s.plan.loaded = true ∧
    x.Fits (b.listFields x) ∧
    s.job.running = true := by
  refine ⟨runs_signed _ _ _ _ (by decide +kernel), ?_⟩
  simp only [Cmd.Fits]
  decide +kernel

theorem test_meets_unload : let s := planned; let c := signed s OC_PLAN_UNLOAD (packet 0 0x0) ses
    s.Runs OC_PLAN_UNLOAD c := runs_signed _ _ _ _ (by decide +kernel)

theorem test_meets_assign : let s := planned; let c := signed s OC_JOB_ASSIGN (packet 16 0x7ff00000000000000000000000000000) ses; let x := c.seen OC_JOB_ASSIGN s
    s.Runs OC_JOB_ASSIGN c ∧
    x.Fits State.jobAssignFields := by
  refine ⟨runs_signed _ _ _ _ (by decide +kernel), ?_⟩
  simp only [Cmd.Fits]
  decide +kernel

theorem test_meets_desc : let s := live; let c := signed s OC_DESC_WRITE (packet 16 0x1000000000000001000000000000000) ses; let x := c.seen OC_DESC_WRITE s; let b := s.begin OC_DESC_WRITE c
    s.Runs OC_DESC_WRITE c ∧
    x.Fits (b.listFields x) := by
  refine ⟨runs_signed _ _ _ _ (by decide +kernel), ?_⟩
  simp only [Cmd.Fits]
  decide +kernel
theorem test_meets_slot_open : let s := live; let c := signed s OC_SLOT_WRITE (packet 66 0x20000000000200000000000000000000000000000000000000000000000000000000000000000000000000000000000000000000000000000000000000000) ses; let x := c.seen OC_SLOT_WRITE s; let b := s.begin OC_SLOT_WRITE c
    s.Runs OC_SLOT_WRITE c ∧
    x.Fits (b.slotFields x.v) ∧
    (SeqSlot.ofNat (State.applyClamps x.v (b.slotFields x.v) % 2 ^ 512)).total ≠ 0 ∧ (b.seqSlot 0).total = 0 ∧
    (SeqSlot.ofNat (State.applyClamps x.v (b.slotFields x.v) % 2 ^ 512)).entries ≤ 1048576 := by
  refine ⟨runs_signed _ _ _ _ (by decide +kernel), ?_⟩
  simp only [Cmd.Fits]
  decide +kernel

theorem test_meets_slot_big : let s := live; let c := signed s OC_SLOT_WRITE (packet 66 0x2000000000000000001ffffff8000000000000000000000000000000000000000000000000000000000000000000000000000000000000000000000000000) ses; let x := c.seen OC_SLOT_WRITE s; let b := s.begin OC_SLOT_WRITE c
    s.Runs OC_SLOT_WRITE c ∧
    x.Fits (b.slotFields x.v) ∧
    (SeqSlot.ofNat (State.applyClamps x.v (b.slotFields x.v) % 2 ^ 512)).total ≠ 0 ∧ (b.seqSlot 0).total = 0 ∧
    1048576 < (SeqSlot.ofNat (State.applyClamps x.v (b.slotFields x.v) % 2 ^ 512)).entries := by
  refine ⟨runs_signed _ _ _ _ (by decide +kernel), ?_⟩
  simp only [Cmd.Fits]
  decide +kernel

theorem test_meets_slot_close : let s := working; let c := signed s OC_SLOT_WRITE (packet 66 0xff00000000000000000000000000000000000000000000000000000000000000000000000000000000000000000000000000000000000000000000000000000000) ses; let x := c.seen OC_SLOT_WRITE s; let b := s.begin OC_SLOT_WRITE c
    s.Runs OC_SLOT_WRITE c ∧
    x.Fits (b.slotFields x.v) ∧
    (SeqSlot.ofNat (State.applyClamps x.v (b.slotFields x.v) % 2 ^ 512)).total = 0 ∧
    s.job.running = true ∧
    (b.told x (b.slotFields x.v)).host.slotWrites.all (fun y => !y.due) = true := by
  refine ⟨runs_signed _ _ _ _ (by decide +kernel), ?_⟩
  simp only [Cmd.Fits]
  decide +kernel

theorem test_meets_job_none : let s := live; let c := signed s OC_JOB_START (packet 0 0x0) ses
    s.Runs OC_JOB_START c ∧
    s.plan.loaded = false := 
  ⟨runs_signed _ _ _ _ (by decide +kernel), by decide +kernel⟩

theorem test_meets_job : let s := planned; let c := signed s OC_JOB_START (packet 0 0x0) ses
    s.Runs OC_JOB_START c ∧
    s.plan.loaded = true ∧ s.job.running = false ∧ s.job.starting = false ∧
    s.plan.piers = [s.pierId] ∧ s.plan.members = [s.pierId] ∧ s.job.records = [] := 
  ⟨runs_signed _ _ _ _ (by decide +kernel), by decide +kernel⟩

/-- A plan of two piers. -/
def joint : State := { live with plan := { loaded := true, members := [0, 1], piers := [0, 1] } }

theorem test_meets_job_joint : let s := joint; let c := signed s OC_JOB_START (packet 0 0x0) ses
    s.Runs OC_JOB_START c ∧
    s.plan.loaded = true ∧ s.job.running = false ∧ s.job.starting = false ∧
    1 ∈ s.plan.piers ∧ 1 ≠ s.pierId ∧ (s.job.records.any fun r => r.1 == 1) = false := 
  ⟨runs_signed _ _ _ _ (by decide +kernel), by decide +kernel⟩

theorem test_meets_job_timeout : let s : State := { joint with job := { starting := true } }; s.on = true ∧ s.job.starting = true ∧ (s.plan.piers.any fun p => !s.job.records.any (·.1 == p)) = true := by decide +kernel

theorem test_meets_span : let s := live; let c := signed s OC_SPAN_CREATE (packet 64 0xfff00000000000000000000008000800000000000000000000000000000000000000000000000000000000000000000000000000000000000000000000000000) ses; let x := c.seen OC_SPAN_CREATE s; let b := s.begin OC_SPAN_CREATE c
    s.Runs OC_SPAN_CREATE c ∧
    x.Fits (b.spanFields x.v) ∧
    (b.told x (b.spanFields x.v)).spanValid 4095 = false := by
  refine ⟨runs_signed _ _ _ _ (by decide +kernel), ?_⟩
  simp only [Cmd.Fits]
  decide +kernel

/-- Span 0 is in use. -/
def spanned : State := { live with mem := [(SPAN_TABLE + 42, 0x10#8)] }

theorem test_meets_span_used : let s := spanned; let c := signed s OC_SPAN_CREATE (packet 64 0x8000800000000000000000000000000000000000000000000000000000000000000000000000000000000000000000000000000) ses; let x := c.seen OC_SPAN_CREATE s; let b := s.begin OC_SPAN_CREATE c
    s.Runs OC_SPAN_CREATE c ∧
    x.Fits (b.spanFields x.v) ∧
    (b.told x (b.spanFields x.v)).spanValid 0 = true := by
  refine ⟨runs_signed _ _ _ _ (by decide +kernel), ?_⟩
  simp only [Cmd.Fits]
  decide +kernel

theorem test_meets_span_delete : let s := spanned; let c := signed s OC_SPAN_DELETE (packet 16 0x0) ses; let x := c.seen OC_SPAN_DELETE s; let b := s.begin OC_SPAN_DELETE c
    s.Runs OC_SPAN_DELETE c ∧
    x.Fits b.spanDeleteFields := by
  refine ⟨runs_signed _ _ _ _ (by decide +kernel), ?_⟩
  simp only [Cmd.Fits]
  decide +kernel

theorem test_meets_span_done : (live.createSpan 4 0xfff00000000000000000000008000800000000000000000000000000000000000000000000000000000000000000000000000000000000000000000000000000 1 [Handle.ofNat 0]).status = ST_DONE := by decide +kernel

theorem test_meets_span_twice : (live.createSpan 4 0xfff00008000000000000000108000800000000000000000000000000000000000000000000000000000000000000000000000000000000000000000000000000 2 [Handle.ofNat 0, Handle.ofNat 0]).status = ST_STATE := by decide +kernel

theorem test_meets_abort_late : let s := logged; let c := signed s OC_ABORT (packet 16 0x4000000000000000000000000) ses; let x := c.seen OC_ABORT s; let b := s.begin OC_ABORT c
    s.Runs OC_ABORT c ∧
    x.Fits (abortFields x b) ∧
    ((b.logOf (fld x.v 127 96)).any fun r => r.status.isSome) = true := by
  refine ⟨runs_signed _ _ _ _ (by decide +kernel), ?_⟩
  simp only [Cmd.Fits]
  decide +kernel

theorem test_meets_abort_job : let s := working; let c := signed s OC_ABORT (packet 16 0x4000000000000000000000000) ses; let x := c.seen OC_ABORT s; let b := s.begin OC_ABORT c
    s.Runs OC_ABORT c ∧
    x.Fits (abortFields x b) ∧
    ((b.logOf (fld x.v 127 96)).any fun r => r.status.isNone) = true ∧
    s.host.waiting = [] ∧ s.host.ops = [] ∧ s.host.waits = [] ∧ s.job.cmdId = some 4 ∧ s.job.starting = false := by
  refine ⟨runs_signed _ _ _ _ (by decide +kernel), ?_⟩
  simp only [Cmd.Fits]
  decide +kernel

theorem test_meets_abort_wait : let s := waiting; let c := signed s OC_ABORT (packet 16 0x64000000000000000000000000) ses; let x := c.seen OC_ABORT s; let b := s.begin OC_ABORT c
    s.Runs OC_ABORT c ∧
    x.Fits (abortFields x b) ∧
    ((b.logOf (fld x.v 127 96)).any fun r => r.status.isNone) = true ∧
    s.host.waiting = [] ∧ s.host.ops = [] ∧ (s.host.waits.find? (fun y => y.cmdId == 100)).isSome = true := by
  refine ⟨runs_signed _ _ _ _ (by decide +kernel), ?_⟩
  simp only [Cmd.Fits]
  decide +kernel

theorem test_meets_roll : let s := live; let c := signed s OC_ROLL_CALL (packet 16 0x1fc00000000000000000000000000000) ses; let x := c.seen OC_ROLL_CALL s
    s.Runs OC_ROLL_CALL c ∧
    x.Fits State.rollFields ∧
    s.plan.loaded = false ∧ s.net.roll.running = false := by
  refine ⟨runs_signed _ _ _ _ (by decide +kernel), ?_⟩
  simp only [Cmd.Fits]
  decide +kernel

theorem test_meets_roll_chain : let s := live; let c := signed s OC_ROLL_CALL (packet 16 0x40000000000000000000000000000000) ses; let x := c.seen OC_ROLL_CALL s
    s.Runs OC_ROLL_CALL c ∧
    x.Fits State.rollFields ∧
    fld x.v 127 126 = 1 := by
  refine ⟨runs_signed _ _ _ _ (by decide +kernel), ?_⟩
  simp only [Cmd.Fits]
  decide +kernel

theorem test_meets_roll_planned : let s := planned; let c := signed s OC_ROLL_CALL (packet 16 0x0) ses; let x := c.seen OC_ROLL_CALL s
    s.Runs OC_ROLL_CALL c ∧
    x.Fits State.rollFields ∧
    s.plan.loaded = true := by
  refine ⟨runs_signed _ _ _ _ (by decide +kernel), ?_⟩
  simp only [Cmd.Fits]
  decide +kernel

/-- Piers 0 and 1 are attached. -/
def attached : State := { live with net := { live.net with maps := [{ serial := 0, pier := 0, x := 0, y := 0, z := 0, spare := false, links := [] }, { serial := 1, pier := 1, x := 1, y := 0, z := 0, spare := false, links := [] }] } }

theorem test_meets_detach : let s := attached; let c := signed s OC_DRAIN_DETACH (packet 16 0x100000000000000000000000000000) ses; let x := c.seen OC_DRAIN_DETACH s; let b := s.begin OC_DRAIN_DETACH c
    s.Runs OC_DRAIN_DETACH c ∧
    x.Fits b.detachFields ∧
    s.plan.loaded = false ∧ s.net.detach.isSome = false := by
  refine ⟨runs_signed _ _ _ _ (by decide +kernel), ?_⟩
  simp only [Cmd.Fits]
  decide +kernel

theorem test_meets_detach_busy : let s := { attached with net := { attached.net with detach := some (1, 4) } }; let c := signed s OC_DRAIN_DETACH (packet 16 0x100000000000000000000000000000) ses; let x := c.seen OC_DRAIN_DETACH s; let b := s.begin OC_DRAIN_DETACH c
    s.Runs OC_DRAIN_DETACH c ∧
    x.Fits b.detachFields ∧
    s.net.detach.isSome = true := by
  refine ⟨runs_signed _ _ _ _ (by decide +kernel), ?_⟩
  simp only [Cmd.Fits]
  decide +kernel

/-! ### Snapshot, trace, maintenance and operators -/

theorem test_meets_snap_take : let s := live; let c := signed s OC_SNAPSHOT (packet 16 0x0) ses; let x := c.seen OC_SNAPSHOT s
    s.Runs OC_SNAPSHOT c ∧
    rowField 127 126 0 3 c s = true ∧
    x.Fits (State.zeroFrom 125) := by
  refine ⟨runs_signed _ _ _ _ (by decide +kernel), ?_⟩
  simp only [Cmd.Fits]
  decide +kernel

theorem test_meets_snap_release : let s := live; let c := signed s OC_SNAPSHOT (packet 16 0x80000000000000000000000000000000) ses; let x := c.seen OC_SNAPSHOT s
    s.Runs OC_SNAPSHOT c ∧
    rowField 127 126 2 3 c s = true ∧
    x.Fits (State.zeroFrom 125) := by
  refine ⟨runs_signed _ _ _ _ (by decide +kernel), ?_⟩
  simp only [Cmd.Fits]
  decide +kernel

theorem test_meets_snap_read : let s := live; let c := signed s OC_SNAPSHOT (packet 16 0x40400000000000000000000000100000) ses; let x := c.seen OC_SNAPSHOT s; let b := s.begin OC_SNAPSHOT c
    s.Runs OC_SNAPSHOT c ∧
    rowField 127 126 1 3 c s = true ∧
    x.Fits (b.partFields x.v State.SNAP_SIZE 13) := by
  refine ⟨runs_signed _ _ _ _ (by decide +kernel), ?_⟩
  simp only [Cmd.Fits]
  decide +kernel

/-- Slot 63 holds two trace records and has one left to store; sampling runs. -/
def tracing : State := { live with trace := { live.trace with bufs := [(63, { state := .post 0, recs := [1, 2] })], sampling := true, trigMask := 63 } }

theorem test_meets_trace_read : let s := tracing; let c := signed s OC_SNAPSHOT (packet 16 0xc0400000000000000008000000083f00) ses; let x := c.seen OC_SNAPSHOT s; let b := s.begin OC_SNAPSHOT c
    s.Runs OC_SNAPSHOT c ∧
    rowField 127 126 3 3 c s = true ∧
    x.Fits (b.partFields x.v (32 * (s.traceBuf (fld x.v 13 8)).recs.length) 7) := by
  refine ⟨runs_signed _ _ _ _ (by decide +kernel), ?_⟩
  simp only [Cmd.Fits]
  decide +kernel

theorem test_meets_sample_start : let s := live; let c := signed s OC_TRACE_CTL (packet 32 0x1880000000040000000040400000000000000000000000000000000000000000) ses; let x := c.seen OC_TRACE_CTL s; let b := s.begin OC_TRACE_CTL c
    s.Runs OC_TRACE_CTL c ∧
    rowField 255 253 0 4 c s = true ∧
    x.Fits (b.sampleFields x.v) ∧
    bitOf x.v 247 = true := by
  refine ⟨runs_signed _ _ _ _ (by decide +kernel), ?_⟩
  simp only [Cmd.Fits]
  decide +kernel

theorem test_meets_sample_stop : let s := live; let c := signed s OC_TRACE_CTL (packet 32 0xa00000000000000000000000000000000000000000000000000000000000000) ses; let x := c.seen OC_TRACE_CTL s; let b := s.begin OC_TRACE_CTL c
    s.Runs OC_TRACE_CTL c ∧
    rowField 255 253 0 4 c s = true ∧
    x.Fits (b.sampleFields x.v) ∧
    bitOf x.v 247 = false := by
  refine ⟨runs_signed _ _ _ _ (by decide +kernel), ?_⟩
  simp only [Cmd.Fits]
  decide +kernel

theorem test_meets_trace : let s := live; let c := signed s OC_TRACE_CTL (packet 32 0x2000000000010000800000000000000000000000000000000000000000000000) ses; let x := c.seen OC_TRACE_CTL s; let b := s.begin OC_TRACE_CTL c
    s.Runs OC_TRACE_CTL c ∧
    rowField 255 253 1 4 c s = true ∧
    x.Fits (b.traceFields x.v) := by
  refine ⟨runs_signed _ _ _ _ (by decide +kernel), ?_⟩
  simp only [Cmd.Fits]
  decide +kernel

theorem test_meets_trigger : let s := live; let c := signed s OC_TRACE_CTL (packet 32 0x4000000000000000000000000000000000000000000000000000000000000000) ses; let x := c.seen OC_TRACE_CTL s
    s.Runs OC_TRACE_CTL c ∧
    rowField 255 253 2 4 c s = true ∧
    x.Fits State.opFields ∧
    bitOf s.trace.trigMask TG_HOST = false := by
  refine ⟨runs_signed _ _ _ _ (by decide +kernel), ?_⟩
  simp only [Cmd.Fits]
  decide +kernel

theorem test_meets_stop : let s := tracing; let c := signed s OC_TRACE_CTL (packet 32 0x6000000000000000000000000000000000000000000000000000000000000000) ses; let x := c.seen OC_TRACE_CTL s
    s.Runs OC_TRACE_CTL c ∧
    rowField 255 253 3 4 c s = true ∧
    x.Fits State.opFields := by
  refine ⟨runs_signed _ _ _ _ (by decide +kernel), ?_⟩
  simp only [Cmd.Fits]
  decide +kernel

theorem test_meets_trace_status : let s := live; let c := signed s OC_TRACE_CTL (packet 32 0x8020000000000000000000000000000000000000000000000000000000000000) ses; let x := c.seen OC_TRACE_CTL s; let b := s.begin OC_TRACE_CTL c
    s.Runs OC_TRACE_CTL c ∧
    rowField 255 253 4 4 c s = true ∧
    x.Fits b.traceStatusFields := by
  refine ⟨runs_signed _ _ _ _ (by decide +kernel), ?_⟩
  simp only [Cmd.Fits]
  decide +kernel

theorem test_meets_sampling : tracing.computing = true ∧ tracing.trace.sampling = true ∧ (tracing.traceBuf 63).state = .post 0 ∧ live.computing = true ∧ live.trace.sampling = false ∧ (live.traceBuf 0).state ≠ .post 0 := by decide +kernel

theorem test_meets_debug : let s := live; let c := signed s OC_DEBUG_MODE (packet 16 0x80000000000000000000000000000000) ses; let x := c.seen OC_DEBUG_MODE s
    s.Runs OC_DEBUG_MODE c ∧
    x.Fits (State.zeroFrom 126) ∧
    s.plan.loaded = false := by
  refine ⟨runs_signed _ _ _ _ (by decide +kernel), ?_⟩
  simp only [Cmd.Fits]
  decide +kernel

theorem test_meets_debug_planned : let s := planned; let c := signed s OC_DEBUG_MODE (packet 16 0x0) ses; let x := c.seen OC_DEBUG_MODE s
    s.Runs OC_DEBUG_MODE c ∧
    x.Fits (State.zeroFrom 126) ∧
    s.plan.loaded = true := by
  refine ⟨runs_signed _ _ _ _ (by decide +kernel), ?_⟩
  simp only [Cmd.Fits]
  decide +kernel

theorem test_meets_retire : let s := live; let c := signed s OC_RETIRE_UNIT (packet 16 0x187f000000000000000000000000000) ses; let x := c.seen OC_RETIRE_UNIT s
    s.Runs OC_RETIRE_UNIT c ∧
    x.Fits (State.retireFields x.v) ∧
    s.job.running = false ∧
    fld x.v 127 120 ≠ UK_VLANE := by
  refine ⟨runs_signed _ _ _ _ (by decide +kernel), ?_⟩
  simp only [Cmd.Fits]
  decide +kernel

theorem test_meets_retire_later : let s := working; let c := signed s OC_RETIRE_UNIT (packet 16 0x1000000000000000000000000000000) ses; let x := c.seen OC_RETIRE_UNIT s
    s.Runs OC_RETIRE_UNIT c ∧
    x.Fits (State.retireFields x.v) ∧
    s.job.running = true := by
  refine ⟨runs_signed _ _ _ _ (by decide +kernel), ?_⟩
  simp only [Cmd.Fits]
  decide +kernel

theorem test_meets_operator : let s := live; let c := signed s OC_OPERATOR (packet 80 0x80008000040000000010000000000000000000000000000000000000000000000000000000000000000000000000000000000000000000010000000000000000000000000000000) ses; let x := c.seen OC_OPERATOR s; let b := s.begin OC_OPERATOR c
    s.Runs OC_OPERATOR c ∧
    operRow 0x10 c s = true ∧
    (b.checkOper (x.v % 2 ^ 640)).clamps.any State.isNull = false ∧
    b.operOverlaps (Oper.ofNat (x.v % 2 ^ 640)) = false ∧
    (Oper.ofNat (x.v % 2 ^ 640)).op = 0x10 ∧ (Oper.ofNat (x.v % 2 ^ 640)).boundary = false ∧ (Oper.ofNat (x.v % 2 ^ 640)).deadline = 0 ∧
    s.job.running = false ∧
    b.opLeafGone (Oper.ofNat (x.v % 2 ^ 640)).span = false ∧ b.opUnserved (Oper.ofNat (x.v % 2 ^ 640)).span = false ∧ s.host.ops.length < 64 := 
  ⟨runs_signed _ _ _ _ (by decide +kernel), by decide +kernel⟩

theorem test_meets_operator_busy : let s := working; let c := signed s OC_OPERATOR (packet 80 0x80008000040000000010000000000000000000000000000000000000000000000000000000000000000000000000000000000000000000010000000000000000000000000000000) ses; let x := c.seen OC_OPERATOR s; let b := s.begin OC_OPERATOR c
    s.Runs OC_OPERATOR c ∧
    operRow 0x10 c s = true ∧
    (b.checkOper (x.v % 2 ^ 640)).clamps.any State.isNull = false ∧
    b.operOverlaps (Oper.ofNat (x.v % 2 ^ 640)) = false ∧
    (Oper.ofNat (x.v % 2 ^ 640)).op = 0x10 ∧ (Oper.ofNat (x.v % 2 ^ 640)).boundary = false ∧ (Oper.ofNat (x.v % 2 ^ 640)).deadline = 0 ∧
    s.job.running = true := 
  ⟨runs_signed _ _ _ _ (by decide +kernel), by decide +kernel⟩

/-- A queued operator of this pier, due, on core slot 0. -/
def queued : OpRun := { origin := 0, cmdId := 4, record := 0x20000000000000000000000000000000, block := 0, crc := live.operCrc 0x20000000000000000000000000000000, due := true }

theorem test_meets_operator_due : let s : State := { live with host := { live.host with ops := [queued] } }; queued.due = true ∧ queued.phase = .queued ∧ queued.again = false ∧ queued.ready = [] ∧ queued.parts = [] ∧ queued.origin = s.pierId ∧
    s.opPiers queued = [s.pierId] ∧ s.opBlocked queued = ST_DONE ∧ s.job.running = false ∧ s.sys.computeReset = false ∧ s.falsework.reshardDone = [] ∧ s.streams = [] ∧
    queued.oper.op ∉ [0x70, 0x80, 0x90, 0x91, 0xA0] := by decide +kernel
/-! ### Power, resets and bring-up -/

theorem test_meets_heat : ({ State.reset with sys := { thermN := false, temps := [(0, 11500)] } } : State).hottestDie = 11500 ∧ State.reset.sys.boot ≠ .off := by decide +kernel

theorem test_meets_heat_bands : live.hottestDie ≤ 10000 ∧ 9000 < 9001 ∧ 9001 < 9500 ∧ 5700 ≤ 5700 ∧ ¬ (10500 ≤ live.hottestDie ∨ 6200 ≤ 6199) := by decide +kernel

theorem test_meets_pll : live.on = true ∧ (3 < 4 ∧ 3 < 6) ∧ (4 ≤ 5 ∧ 5 < 6) := by decide +kernel

/-- States of bring-up. -/
def atBoot (b : Boot) : State := { live with sys := { boot := b, resetN := true } }

theorem test_meets_test : (atBoot .testing).sys.boot = .testing ∧ 2175 < unitCount UK_CORE := by decide +kernel

theorem test_meets_training : (atBoot .training).sys.boot = .training ∧ (atBoot .training).host.ring = none ∧ ((atBoot .training).trainUnits [] (2 ^ 64 - 1)).stacksGood = true ∧
    ((atBoot .training).trainUnits [11] 0).stacksGood = false := by decide +kernel

theorem test_meets_memory_test : (atBoot .memTest).sys.boot = .memTest ∧ (atBoot .memTest).gate.rows = [] ∧ (atBoot .memTest).sys.earlyComputeReset = false := by decide +kernel

theorem test_meets_compute_reset : live.sys.boot = .ready ∧ live.sys.computeReset = false ∧ live.job.running = false ∧ (atBoot .linked).on = true ∧ (atBoot .linked).sys.boot ≠ .ready ∧ State.reset.on = false := by decide +kernel

/-- A compute reset of a pier that holds nothing else. -/
def stopped : State := { live with sys := { boot := .ready, resetN := true, computeReset := true, computeResetN := false }, job := { notices := [0, 5] } }

theorem test_meets_rejoin : stopped.sys.boot = .ready ∧ stopped.sys.computeReset = true ∧ stopped.host.ring = none ∧ stopped.falsework.reshard = none ∧ stopped.streams = [] ∧ stopped.plan.syncs = [] ∧ stopped.on = true ∧ 7 ∉ stopped.job.notices := by decide +kernel

theorem test_meets_rejoin_streams : (∀ r, (stopped.stream r).phase ≠ .gate) ∧ (∀ id ∈ stopped.plan.syncs, id < 65536) := by
  refine ⟨fun r => ?_, fun id h => ?_⟩
  · have : stopped.stream r = {} := rfl
    rw [this]; decide
  · have : stopped.plan.syncs = [] := rfl
    rw [this] at h; cases h

/-! ### Ports and flits -/

/-- Port 0 is up, port 1 trains, port 2 has lost all but two lanes, and port 3 is exhausted. -/
def linked : State := { live with net := { live.net with ports := [
  (0, { state := .up, width := 4, lanes := 15, sinceAck := 1, awaiting := true, retry := [{ hdr := 0 }] }), (1, { state := .training, attempts := 3 }), (2, { state := .up, width := 2, lanes := 3 }),
  (3, { state := .up, width := 4, asked := 8 }), (4, { state := .training }), (5, { state := .disabled })] } }

theorem test_meets_lane : linked.portRuns 0 = true ∧ bitOf (linked.port 0).lanes 3 = true ∧ linked.portRuns 2 = true ∧ bitOf (linked.port 2).lanes 2 = false ∧ bitOf (linked.port 2).lanes 1 = true ∧ linked.portUp 0 = true := by decide +kernel

theorem test_meets_eye : linked.on = true ∧ (∀ m ∈ [(0, 0, 119), (63, 0, 120)], m.1 < 64) ∧ linked.portRuns (0 / 4) = true ∧ 119 < 120 ∧ bitOf (linked.port 0).lanes 0 = true ∧ ∀ m ∈ [(63, 0, 120)], 120 ≤ m.2.2 := by decide +kernel

theorem test_meets_retry_training : linked.portRuns 1 = true ∧ (linked.port 1).state = .training ∧ 3 ≤ (linked.port 1).attempts ∧ linked.portRuns 4 = true ∧ (linked.port 4).attempts < 3 ∧ linked.portRuns 5 = true ∧ (linked.port 5).state = .disabled ∧
    ¬ ((linked.port 4).retired = true ∨ popcount 4 (linked.port 4).lanes < 2 ∨ linked.unitGood UK_VPORT 4 = false) := by decide +kernel

/-- IDENT of a neighbour's port. -/
def identFlit (port lanes : Nat) : Flit := ({ hdr := FT_IDENT * 2 ^ 129, body := .ident { serial := 1, pier := 1, port := port, stepping := 0xB1, lanes := lanes } } : Flit).sealed

theorem test_meets_ident : linked.portRuns 4 = true ∧ (linked.port 4).state = .training ∧ (linked.port 4).retired = false ∧ (identFlit 5 2).uncorrectable = false ∧
    State.rolesMeet 4 5 = true ∧ State.rolesMeet 4 4 = false ∧ 2 ≤ min (popcount 4 (linked.port 4).lanes) 2 ∧ min (popcount 4 (linked.port 4).lanes) 1 < 2 := by decide +kernel

theorem crc_congr {f g : Flit} (h1 : f.hdr = g.hdr) (h2 : f.words = g.words) (h3 : f.pmap = g.pmap) : f.crcOf = g.crcOf := by
  simp only [Flit.crcOf, Flit.image, h1, h2, h3]

theorem mk_parts (a : Nat) (b : List Nat) (c d e : Nat) (g : FlitBody) (h : Nat) (i : Bool) :
    (Flit.mk a b c d e g h i).hdr = a ∧ (Flit.mk a b c d e g h i).words = b ∧ (Flit.mk a b c d e g h i).pmap = c ∧ (Flit.mk a b c d e g h i).crc = d := ⟨rfl, rfl, rfl, rfl⟩

theorem crc_sealed (f : Flit) : f.sealed.crc = f.sealed.crcOf := by
  have h : f.sealed.hdr = f.hdr ∧ f.sealed.words = f.words ∧ f.sealed.pmap = f.pmap ∧ f.sealed.crc = f.crcOf := by unfold Flit.sealed; exact mk_parts ..
  rw [h.2.2.2]; exact (crc_congr h.1 h.2.1 h.2.2.1).symm

/-- A flit of a type on a channel to a pier, with its CRC; it acknowledges 0 and may go two hops. -/
def flit (t vc dst seq : Nat) (words : List Nat) : Flit :=
  ((((((({ hdr := t * 2 ^ 129, words := words } : Flit).withHdr 134 133 vc).withHdr 112 101 dst).withHdr 88 83 2).withHdr 135 135 1).withHdr 159 148 seq).withHdr 82 71 0xFFF).sealed

theorem test_meets_bad_flit : linked.portRuns 0 = true ∧ linked.portUp 0 = true ∧ (∀ row ∈ flitCommands, (flit row.2 0 0 0 []).type = row.2) ∧ ({ flit 1 0 0 0 [] with uncorrectable := true } : Flit).uncorrectable = true := by decide +kernel

theorem test_meets_idle_flit : (flit FT_IDLE 0 0 0 []).uncorrectable = false ∧ malformed (flit FT_IDLE 0 0 0 []) = false ∧ (flit FT_IDLE 0 0 0 []).type = FT_IDLE ∧ (flit FT_IDLE 0 0 0 []).ackValid = true ∧
    State.retryAt (linked.port 0) (flit FT_IDLE 0 0 0 []).ack = some 0 ∧ linked.net.held = [] ∧ linked.net.change = .idle := by decide +kernel

theorem test_meets_retry_req : malformed (flit FT_RETRY_REQ 0 0 0 []) = false ∧ (flit FT_RETRY_REQ 0 0 0 []).type = FT_RETRY_REQ ∧ (flit FT_RETRY_REQ 0 0 0 []).ackValid = true ∧ State.retryAt (linked.port 0) (flit FT_RETRY_REQ 0 0 0 []).ack = some 0 := by decide +kernel

theorem test_meets_timers : (linked.port 0).awaiting = true ∧ (linked.port 0).sinceAck ≠ 0 ∧ linked.exhausted 3 = true ∧ linked.portRuns 3 = true ∧ (linked.port 3).awaiting = false ∧ (linked.port 3).sinceAck = 0 ∧ linked.exhausted 0 = false := by decide +kernel

theorem test_meets_quiet : ({ linked with net := { linked.net with change := .quiet } } : State).net.change = .quiet ∧ linked.net.change ≠ .quiet ∧ linked.on = true := by decide +kernel

/-- The channel that each sequenced type takes. -/
def channel (t : Nat) : Nat := firstVc t

theorem test_meets_flit : ∀ t ∈ [FT_WRITE, FT_READ_REQ, FT_SIGNAL, FT_COLL, FT_CTRL], sequencedType t = true ∧ malformed (flit t (channel t) 0 0 []) = false ∧ (flit t (channel t) 0 0 []).uncorrectable = false ∧
    (flit t (channel t) 0 0 []).seq = (linked.port 0).rxSeq ∧ linked.pierId ≠ 0xFFF ∧ (flit t (channel t) 0 0 []).epoch = linked.net.epoch ∧ 1 < (flit t (channel t) 0 0 []).ttl ∧ (flit t (channel t) 0 0 []).dst = linked.pierId ∧
    (flit t (channel t) 0 4095 []).seq ≠ (linked.port 0).rxSeq ∧ (flit t (channel t) 0x7FF 0 []).dst ≠ linked.pierId ∧ (flit t (channel t) 0x7FF 0 []).dst < 0x800 := by decide +kernel

theorem test_meets_flit_dropped : ((flit FT_WRITE 0 0 0 []).withHdr 88 83 1).ttl ≤ 1 ∧ ((flit FT_WRITE 0 0 0 []).withHdr 1 1 1).epoch ≠ linked.net.epoch := by decide +kernel

theorem test_meets_write_flit : let f := (flit FT_WRITE 0 0 0 [7]).withHdr 64 17 0x010000000000; f.body = .none ∧ f.type = FT_WRITE ∧ (∀ i < f.bytes.length, live.fabricWrites (f.addr + i) = true) ∧
    (∀ i < f.bytes.length, live.fabricWrites ((f.withHdr 64 17 RESERVE).addr + i) = false) := by decide +kernel

theorem test_meets_read_flit : let f := (flit FT_READ_REQ 3 0 0 [0, 0x100, 64]).withHdr 64 17 0x010000000000; f.type = FT_READ_REQ ∧ live.ecc = [] ∧ min 4096 (f.words.getD 2 0) ≠ 0 ∧ f.words.getD 0 0 + f.words.getD 1 0 * 2 ^ 32 < 2 ^ 60 ∧
    (∀ i < 64, live.fabricServes (f.addr + i) = true ∧ live.reach .move false (f.addr + i) = true) := by decide +kernel

theorem test_meets_signal_flit : (flit FT_SIGNAL 0 0 0 [65535, 1]).type = FT_SIGNAL ∧ live.computing = true ∧ live.syncMode 65535 = 0 := by decide +kernel

theorem test_meets_coll_flit : ({ flit FT_COLL 2 0 0 [7] with body := .coll { coll := 1, step := 0, src := 1, part := .copy 0 0 } } : Flit).eom = false ∧ live.computing = true := by decide +kernel

theorem test_meets_ctrl_flit : (flit FT_CTRL 3 0 0 []).type = FT_CTRL ∧ working.job.running = true ∧ live.host.ops.length < 64 ∧ live.job.running = false := by decide +kernel
/-! ### Streams -/

/-- Nonzero bytes of a number at an address. -/
def at_ (a n v : Nat) : List (Nat × Byte) := ((natLE n v).zipIdx.filter fun b => b.1 != 0#8).map fun b => (a + b.2, b.1)

/-- A running job of this pier with one stream at an instruction: its program of 4 words is at the start of HBM, its descriptors at 1 KiB. -/
def headed (r : SRef) (w : Nat) (t : StreamSt := { phase := .ready }) : State := { working with
  streams := [(r, t)]
  job := { running := true, cmdId := some 4, begun := [0] }
  mem := at_ 0 16 w ++ at_ (State.ctxAddr r) 32 (1024 * 2 ^ 160 + 4 * 2 ^ 144 + 2 ^ 143 + 2 ^ 142) }

/-- An instruction in flight whose work is done. -/
def doneFlight : InFlight := { seq := 0, pc := 0, idxs := [], word := 0, done := true, clamped := true }

/-- An instruction in flight whose work goes on. -/
def openFlight : InFlight := { seq := 1, pc := 0, idxs := [], word := 0x30 + 0xA1 * 2 ^ 104 }
theorem test_meets_not_running : State.reset.runs (.f 0) = false ∧ (headed (.f 0) 0x72).runs (.f 0) = true ∧ ¬ (headed (.f 0) 0x72).AtHead (.f 0) OP_LOOP := by
  simp only [State.AtHead]
  decide +kernel

theorem test_meets_wait_sync : let s := headed (.f 2047) 0x4400000000073; True ∧ ({ s with fp := { s.fp with coreBind := [(2047, 0)] } } : State).AtHead (.f 2047) OP_FENCE ∧ s.waitOk (.f 2047) (s.head (.f 2047)) = false := by
  simp only [State.AtHead, true_and]
  decide +kernel

theorem test_meets_wait_kernel : let s := headed (.f 0) 0x73 { phase := .ready, inflight := [openFlight] }; s.AtHead (.f 0) OP_FENCE ∧ s.waitOk (.f 0) (s.head (.f 0)) = true ∧ State.kernelOpen (s.stream (.f 0)) = true := by
  simp only [State.AtHead]
  decide +kernel

theorem test_meets_swait : let s : State := headed (.f 0) 0x60; let r : SRef := .f 0; s.HeadReady r OP_SWAIT := by
  simp only [State.HeadReady, State.AtHead]
  decide +kernel

theorem test_meets_loop_skip : let s : State := headed (.f 0) 0x70; let r : SRef := .f 0; s.HeadReady r OP_LOOP ∧
    fld (s.head r) 127 112 = 0 := by
  simp only [State.HeadReady, State.AtHead]
  decide +kernel

theorem test_meets_loop : let s : State := headed (.f 0) 0xffff0000000000000000000000000070; let r : SRef := .f 0; s.HeadReady r OP_LOOP ∧
    fld (s.head r) 127 112 ≠ 0 := by
  simp only [State.HeadReady, State.AtHead]
  decide +kernel

theorem test_meets_loopm_skip : let s : State := headed (.f 0) 0x5000000000000000000000000000071; let r : SRef := .f 0; s.HeadReady r OP_LOOPM ∧
    s.ecc = [] ∧
    leNat ((s.readBy (.drain 0) (fld (s.head r) 127 80) 4).map (·.1)) = 0 := by
  simp only [State.HeadReady, State.AtHead]
  decide +kernel

theorem test_meets_loopm : let s : State := headed (.u 0) 0x71; let r : SRef := .u 0; s.HeadReady r OP_LOOPM ∧
    s.ecc = [] ∧
    min (leNat ((List.range 4).map fun i => (s.byte (fld (s.head r) 127 80 + i)).1)) (max (fld (s.head r) 79 64) 1) = 1 := by
  simp only [State.HeadReady, State.AtHead]
  decide +kernel

theorem test_meets_endloop : let s : State := headed (.f 0) 0x72; let r : SRef := .f 0; s.HeadReady r OP_ENDLOOP ∧
    (s.stream r).loops = [] := by
  simp only [State.HeadReady, State.AtHead]
  decide +kernel

theorem test_meets_endloop_again : let s : State := headed (.f 0) 0x72 { phase := .ready, loops := [{ start := 0, count := 2, idx := 0 }] }; let r : SRef := .f 0; s.HeadReady r OP_ENDLOOP ∧
    (s.stream r).loops = [{ start := 0, count := 2, idx := 0 }] ∧
    0 + 1 < 2 := by
  simp only [State.HeadReady, State.AtHead]
  decide +kernel

theorem test_meets_endloop_last : let s : State := headed (.f 0) 0x72 { phase := .ready, loops := [{ start := 0, count := 2, idx := 1 }] }; let r : SRef := .f 0; s.HeadReady r OP_ENDLOOP ∧
    (s.stream r).loops = [{ start := 0, count := 2, idx := 1 }] ∧
    2 ≤ 1 + 1 := by
  simp only [State.HeadReady, State.AtHead]
  decide +kernel

theorem test_meets_bridx : let s : State := headed (.f 0) 0x76; let r : SRef := .f 0; s.HeadReady r OP_BRIDX := by
  simp only [State.HeadReady, State.AtHead]
  decide +kernel

theorem test_meets_end : let s : State := headed (.f 0) 0x75; let r : SRef := .f 0; s.HeadReady r OP_END := by
  simp only [State.HeadReady, State.AtHead]
  decide +kernel

theorem test_meets_fence : let s : State := headed (.f 0) 0x73; let r : SRef := .f 0; s.HeadReady r OP_FENCE ∧
    (s.stream r).quiet = true := by
  simp only [State.HeadReady, State.AtHead]
  decide +kernel

theorem test_meets_fence_waits : let s : State := headed (.f 0) 0x73 { phase := .ready, inflight := [doneFlight] }; let r : SRef := .f 0; s.HeadReady r OP_FENCE ∧
    (s.stream r).quiet = false := by
  simp only [State.HeadReady, State.AtHead]
  decide +kernel

theorem test_meets_gate : let s : State := headed (.f 0) 0x74; let r : SRef := .f 0; s.HeadReady r OP_GATE ∧
    State.isU r = false ∧
    s.gateOpen r = true := by
  simp only [State.HeadReady, State.AtHead]
  decide +kernel

theorem test_meets_gate_shut : let s : State := headed (.u 11) 0x74; let r : SRef := .u 11; s.HeadReady r OP_GATE ∧
    (s.stream r).quiet = true ∧
    s.gateOpen r = false := by
  simp only [State.HeadReady, State.AtHead]
  decide +kernel

theorem test_meets_gate_busy : let s : State := headed (.u 11) 0x74 { phase := .ready, inflight := [doneFlight] }; let r : SRef := .u 11; s.HeadReady r OP_GATE ∧
    State.isU r = true ∧
    (s.stream r).quiet = false := by
  simp only [State.HeadReady, State.AtHead]
  decide +kernel

theorem test_meets_mark : let s : State := headed (.f 0) 0x80; let r : SRef := .f 0; s.HeadReady r OP_MARK ∧
    bitOf (s.head r) 93 = false := by
  simp only [State.HeadReady, State.AtHead]
  decide +kernel

theorem test_meets_mark_waits : let s : State := headed (.f 0) 0x200000000000000000000080 { phase := .ready, inflight := [doneFlight] }; let r : SRef := .f 0; s.HeadReady r OP_MARK ∧
    bitOf (s.head r) 93 = true ∧
    (s.stream r).quiet = false := by
  simp only [State.HeadReady, State.AtHead]
  decide +kernel

theorem test_meets_step_inactive : let s := headed (.f 0) 0 { phase := .inactive }; s.runs (.f 0) = true ∧ s.ownLeaf.isSome = true ∧ s.job.running = true ∧ s.job.starting = false ∧ (s.ctx (.f 0)).active = true ∧ (s.stream (.f 0)).phase = .inactive ∧
    1 < s.job.startStep + 2 ∧ 1 ≤ s.job.decided + 1 ∧ s.job.dropSignals = false ∧ s.job.steps = 0 := by decide +kernel

theorem test_meets_step_ended : let s := headed (.f 0) 0 { phase := .ended }; s.runs (.f 0) = true ∧ s.ownLeaf.isSome = true ∧ s.job.running = true ∧ s.job.starting = false ∧ (s.ctx (.f 0)).active = true ∧ (s.stream (.f 0)).phase = .ended ∧
    1 < s.job.startStep + 2 ∧ 1 ≤ s.job.decided + 1 ∧ s.job.dropSignals = false ∧ s.job.steps = 0 := by decide +kernel

theorem test_meets_sadd : let s : State := headed (.f 0) 0x1ffff00000000000000000061; let r : SRef := .f 0; s.HeadReady r OP_SADD ∧
    (s.stream r).inflight = [] ∧ (s.stream r).muted = [] ∧
    s.syncMode (State.syncTarget r (s.stream r) (s.head r)) = 0 := by
  simp only [State.HeadReady, State.AtHead]
  decide +kernel

theorem test_meets_sset : let s : State := headed (.f 0) 0x1000000000000000000000062; let r : SRef := .f 0; s.HeadReady r OP_SSET := by
  simp only [State.HeadReady, State.AtHead]
  decide +kernel

theorem test_meets_sspan : let s : State := headed (.f 0) 0x60000000000000010000000000000063; let r : SRef := .f 0; s.HeadReady r OP_SSPAN ∧
    s.handleOk (Handle.ofNat (fld (s.head r) 127 96)) = true ∧ (s.stream r).muted = [] ∧
    s.spanPiers (Handle.ofNat (fld (s.head r) 127 96)) = [s.pierId] ∧
    s.syncMode (State.syncTarget r (s.stream r) (s.head r)) = 0 := by
  simp only [State.HeadReady, State.AtHead]
  decide +kernel

theorem test_meets_sspan_none : let s : State := headed (.f 0) 0xe0000000000000000000000000000063; let r : SRef := .f 0; s.HeadReady r OP_SSPAN ∧
    s.handleOk (Handle.ofNat (fld (s.head r) 127 96)) = false := by
  simp only [State.HeadReady, State.AtHead]
  decide +kernel

theorem test_meets_completion : let s := headed (.f 0) 0 { phase := .ready, inflight := [doneFlight, openFlight] }; s.runs (.f 0) = true ∧ (s.stream (.f 0)).inflight.find? (fun x => x.seq == 0 && x.done && !x.completed) = some doneFlight ∧
    (s.stream (.f 0)).inflight.find? (fun x => x.seq == 1 && x.done && !x.completed) = none ∧ openFlight.seq ≠ 0 ∧ openFlight.completed = false ∧ doneFlight.clamped = true := by decide +kernel

/-! ### Arrays and engines -/

/-- The same with a tile of one element: its tile, operand, drain and output descriptors. -/
def tiled (w : Nat) (t : StreamSt := { phase := .ready }) : State :=
  let s := headed (.f 0) w t
  { s with mem := at_ 0 16 w ++ at_ 1024 256 0x50000000100000c00000001000000010000000000000000000000000000000000000000000000000000000000000000000000000000000000000000000000003f800000000000000000000004c00000000000000000000000000000000000000000000000000000000000000000000000000000000000000000000000000000050000000000000c000000010000000100000000000000000000000000000000000000000000000000000000000000000000000000000000000000000000000000010001000200000000000000000000000000000000000000000000000000000000000000000000000000000000000000000000000000000000000000000000 ++ s.mem.filter fun c => 1024 ≤ c.1 }

/-- What its tile names. -/
def tileOf (s : State) : State.TileNames := s.tileNames (.f 0) (s.head (.f 0))

/-- Its output. -/
def outOf (s : State) : OpDesc := OpDesc.ofNat (s.nat (DrainDesc.ofNat (s.nat (tileOf s).drainAddr 64)).outDesc 64)

theorem test_meets_tile_null : let s : State := headed (.f 0) 0x10; let r : SRef := .f 0; s.HeadReady r OP_TPROD ∧
    State.tileOutside (tileOf s) (outOf s) = true := by
  simp only [State.HeadReady, State.AtHead]
  decide +kernel

theorem test_meets_tile : let s : State := tiled 0x10; let r : SRef := .f 0; s.HeadReady r OP_TPROD ∧
    State.tileOutside (tileOf s) (outOf s) = false ∧ s.tileClamp 0 (tileOf s) = none ∧
    s.arrayHeld 0 = false ∧ IWord.tCont (s.head r) = false ∧ (s.stream r).chain = none ∧
    s.offerSlot 0 (tileOf s).epoch (s.tileArrays r (s.head r)) = some (.f, 0, 0) := by
  simp only [State.HeadReady, State.AtHead]
  decide +kernel

theorem test_meets_table_tile : let s : State := tiled 0x4000000000000000000000000020; let r : SRef := .f 0; s.HeadReady r OP_TBPROD ∧
    State.tileOutside (tileOf s) (outOf s) = false ∧ s.tileClamp 0 (tileOf s) = none ∧
    s.arrayHeld 0 = false ∧ IWord.tCont (s.head r) = false ∧ (s.stream r).chain = none ∧
    s.offerSlot 0 (tileOf s).epoch (s.tileArrays r (s.head r)) = some (.t, 0, 0) := by
  simp only [State.HeadReady, State.AtHead]
  decide +kernel

theorem test_meets_tile_held : let s : State := { tiled 0x10 with sys := { live.sys with powerHold := true } }; let r : SRef := .f 0; s.HeadReady r OP_TPROD ∧
    State.tileOutside (tileOf s) (outOf s) = false ∧ s.tileClamp 0 (tileOf s) = none ∧
    s.arrayHeld 0 = true := by
  simp only [State.HeadReady, State.AtHead]
  decide +kernel

/-- A slot of one cell, and an array whose two banks are taken by another epoch. -/
def cell : SlotSt := { acc := [[{}]], mLen := 1, nLen := 1, m := 0, n := 0, colAddr := 1088, stream := .f 0, step := 0 }

def otherEpoch : Epoch := { rowFmt := 9, colFmt := 9, rowMask := false, colMask := false, rowT := false, colT := false, drain := 0 }

def busyBank : BankSt := { epoch := some otherEpoch, s0 := some cell }

def busyArray : ArraySt := { x := busyBank, y := busyBank }

theorem test_meets_tile_full : let s : State := { tiled 0x10 with arrays := [((0, .f), busyArray)] }; let r : SRef := .f 0; s.HeadReady r OP_TPROD ∧
    State.tileOutside (tileOf s) (outOf s) = false ∧ s.tileClamp 0 (tileOf s) = none ∧
    s.arrayHeld 0 = false ∧ IWord.tCont (s.head r) = false ∧ (s.stream r).chain = none ∧
    s.offerSlot 0 (tileOf s).epoch (s.tileArrays r (s.head r)) = none := by
  simp only [State.HeadReady, State.AtHead]
  decide +kernel

theorem test_meets_tile_chain : let s : State := tiled 0x8000000000000000000000000010 { phase := .ready, chain := some { arr := .f, bank := 0, slot := 0, epoch := { rowFmt := 12, colFmt := 12, rowMask := false, colMask := false, rowT := false, colT := false, drain := 1152 }, mLen := 1, nLen := 1 } }; let r : SRef := .f 0; s.HeadReady r OP_TPROD ∧
    State.tileOutside (tileOf s) (outOf s) = false ∧ s.tileClamp 0 (tileOf s) = none ∧
    s.arrayHeld 0 = false ∧ IWord.tCont (s.head r) = true ∧ State.contOk (s.stream r) (tileOf s) = true ∧ (s.stream r).chain.isSome = true := by
  simp only [State.HeadReady, State.AtHead]
  decide +kernel

theorem test_meets_lend_off : (headed (.f 0) 0x10).coreRuns 0 = true ∧ IWord.tLend ((headed (.f 0) 0x10).head (.f 0)) = false := by decide +kernel

theorem test_meets_lend : let s : State := { tiled 0x2000000000000000000000000010 with arrays := [((0, .f), busyArray)] }; s.AtHead (.f 0) OP_TPROD ∧ s.waitOk (.f 0) (s.head (.f 0)) = true ∧ (s.ctx (.f 0)).lendEn = true ∧ IWord.tLend (s.head (.f 0)) = true ∧ IWord.tCont (s.head (.f 0)) = false ∧
    (s.stream (.f 0)).chain = none ∧ s.inRecovery 0 = false ∧ s.arrayHeld 0 = false ∧ s.offerSlot 0 (tileOf s).epoch [.f] = none ∧ s.bIdle 0 = true ∧ State.tileOutside (tileOf s) (outOf s) = false ∧ s.tileClamp 0 (tileOf s) = none ∧ (s.array 0 .b0).hasEmptyBank = true := by
  simp only [State.AtHead]
  decide +kernel

/-- An array with a tile queued for a slot, and another slot full. -/
def working_ : ArraySt := { x := { epoch := some otherEpoch, s0 := some cell, s1 := some { cell with full := true, closing := true } }, full := [(0, 1)], queue := [{ stream := .f 0, seq := 0, word := 0x10, rowAddr := 1088, colAddr := 1088, place := { m := 0, n := 0, k := 0, mLen := 1, nLen := 1, kLen := 1 }, bank := 0, slot := 0, last := false }] }

theorem test_meets_accumulate : let s : State := { tiled 0 with arrays := [((0, .b1), working_)] }; s.coreRuns 0 = true ∧ (s.array 0 .b1).queue = working_.queue ∧ (s.array 0 .b1).slot 0 0 = some cell ∧ cell.closing = false ∧ (s.array 0 .f).queue = [] := by decide +kernel

theorem test_meets_drain : let s : State := { tiled 0 with arrays := [((0, .b1), working_), ((0, .t), { working_ with draining := true })] }; s.coreRuns 0 = true ∧ (s.array 0 .b1).draining = false ∧ (s.array 0 .b1).full = [(0, 1)] ∧ ((s.array 0 .b1).slot 0 1).isSome = true ∧
    ((s.array 0 .b1).bank 0).epoch = some otherEpoch ∧ s.ecc = [] ∧ (DrainDesc.ofNat (s.nat otherEpoch.drain 64)).vhookEn = false ∧ (s.array 0 .t).draining = true ∧ (s.stream (.f 0)).phase ≠ .waitEngine ∧ (s.stream (.b 0)).phase ≠ .waitEngine ∧ (s.array 0 .f).full = [] := by decide +kernel

theorem test_meets_qamax : let s : State := headed (.f 0) 0x40; let r : SRef := .f 0; s.HeadReady r 0x40 := by
  simp only [State.HeadReady, State.AtHead]
  decide +kernel

theorem test_meets_qchamax : let s : State := headed (.f 0) 0x41; let r : SRef := .f 0; s.HeadReady r 0x41 := by
  simp only [State.HeadReady, State.AtHead]
  decide +kernel

theorem test_meets_qconv : let s : State := headed (.f 0) 0x42; let r : SRef := .f 0; s.HeadReady r 0x42 := by
  simp only [State.HeadReady, State.AtHead]
  decide +kernel

theorem test_meets_up1 : let s : State := headed (.u 0) 0x90; let r : SRef := .u 0; s.HeadReady r 0x90 := by
  simp only [State.HeadReady, State.AtHead]
  decide +kernel

theorem test_meets_ucopy : let s : State := headed (.u 0) 0x92; let r : SRef := .u 0; s.HeadReady r 0x92 := by
  simp only [State.HeadReady, State.AtHead]
  decide +kernel

theorem test_meets_kernel_a2 : let s : State := headed (.f 0) 0xa200000000000000000000000030; let r : SRef := .f 0; s.HeadReady r OP_VRUN ∧
    fld (s.head r) 111 104 = 0xa2 ∧
    fld (s.head r) 111 104 ≠ 0xA1 := by
  simp only [State.HeadReady, State.AtHead]
  decide +kernel

theorem test_meets_kernel_a3 : let s : State := headed (.f 0) 0xa300000000000000000000000030; let r : SRef := .f 0; s.HeadReady r OP_VRUN ∧
    fld (s.head r) 111 104 = 0xa3 ∧
    fld (s.head r) 111 104 ≠ 0xA1 := by
  simp only [State.HeadReady, State.AtHead]
  decide +kernel

theorem test_meets_kernel_a4 : let s : State := headed (.f 0) 0xa400000000000000000000000030; let r : SRef := .f 0; s.HeadReady r OP_VRUN ∧
    fld (s.head r) 111 104 = 0xa4 ∧
    fld (s.head r) 111 104 ≠ 0xA1 := by
  simp only [State.HeadReady, State.AtHead]
  decide +kernel

theorem test_meets_kernel_a5 : let s : State := headed (.f 0) 0xa500000000000000000000000030; let r : SRef := .f 0; s.HeadReady r OP_VRUN ∧
    fld (s.head r) 111 104 = 0xa5 ∧
    fld (s.head r) 111 104 ≠ 0xA1 := by
  simp only [State.HeadReady, State.AtHead]
  decide +kernel

theorem test_meets_vrun : let s : State := headed (.f 0) 0x30; let r : SRef := .f 0; s.HeadReady r OP_VRUN ∧
    State.kernelCode (s.head r) = false := by
  simp only [State.HeadReady, State.AtHead]
  decide +kernel

theorem test_meets_vrun_kernel : let s : State := headed (.f 0) 0xa100000000000000000000000030; let r : SRef := .f 0; s.HeadReady r OP_VRUN ∧
    State.kernelCode (s.head r) = true ∧
    State.kernelNull (s.kernelOf r (s.head r)) = true := by
  simp only [State.HeadReady, State.AtHead]
  decide +kernel

/-- Sequence slot 0 is open with one block, one layer and one KV head. -/
def slotted (s : State) : State := { s with mem := s.mem ++ at_ SLOT_DESC 64 0x20000000000200000000000000000000000000000000000000000000000000000000000000000000000000000000000000000000000000000000000000000 }

theorem test_meets_attention : let s : State := slotted (headed (.f 0) 0xa100000000000000000000000030); let r : SRef := .f 0; s.HeadReady r OP_VRUN ∧
    fld (s.head r) 111 104 = 0xA1 ∧
    State.kernelNull (s.kernelOf r (s.head r)) = false ∧
    s.arrayHeld (s.kernelOf r (s.head r)).core = false := by
  simp only [State.HeadReady, State.AtHead]
  decide +kernel

theorem test_meets_attention_held : let s : State := { slotted (headed (.f 0) 0xa100000000000000000000000030) with sys := { live.sys with heatHold := [0] } }; let r : SRef := .f 0; s.HeadReady r OP_VRUN ∧
    State.kernelNull (s.kernelOf r (s.head r)) = false ∧
    s.arrayHeld (s.kernelOf r (s.head r)).core = true := by
  simp only [State.HeadReady, State.AtHead]
  decide +kernel

theorem test_meets_up2 : let s : State := headed (.u 0) 0x91; let r : SRef := .u 0; s.HeadReady r OP_UP2 ∧
    s.fwHolds (s.stream r).step (State.coreOf r, IWord.didx (s.head r)) = false ∧
    ({ s with job := { s.job with needRecovery := true } } : State).job.needRecovery = true := by
  simp only [State.HeadReady, State.AtHead]
  decide +kernel

theorem test_meets_up2_held : let s : State := { headed (.u 0) 0x91 { phase := .ready, step := 1 } with falsework := { run := some { step := 0, gen := 1, unread := [(0, 0)] } } }; let r : SRef := .u 0; s.HeadReady r OP_UP2 ∧
    s.fwHolds (s.stream r).step (State.coreOf r, IWord.didx (s.head r)) = true := by
  simp only [State.HeadReady, State.AtHead]
  decide +kernel

theorem test_meets_reach : live.runs (.f 0) = true ∧ live.ecc = [] ∧ live.reach (.vec 0) true 0x050000100000 = false := by decide +kernel

theorem test_meets_mcopy_fifth : let s : State := headed (.f 0) 0x50 { phase := .ready, inflight := List.replicate 4 { seq := 9, pc := 0, idxs := [], word := 0x750 } }; let r : SRef := .f 0; s.HeadReady r 0x50 ∧
    4 ≤ s.copiesInFlight (State.coreOf r) := by
  simp only [State.HeadReady, State.AtHead]
  decide +kernel

theorem test_meets_mfill_fifth : let s : State := headed (.f 0) 0x51 { phase := .ready, inflight := List.replicate 4 { seq := 9, pc := 0, idxs := [], word := 0x750 } }; let r : SRef := .f 0; s.HeadReady r 0x51 ∧
    4 ≤ s.copiesInFlight (State.coreOf r) := by
  simp only [State.HeadReady, State.AtHead]
  decide +kernel

theorem test_meets_mbankread_fifth : let s : State := headed (.f 0) 0x52 { phase := .ready, inflight := List.replicate 4 { seq := 9, pc := 0, idxs := [], word := 0x750 } }; let r : SRef := .f 0; s.HeadReady r 0x52 ∧
    4 ≤ s.copiesInFlight (State.coreOf r) := by
  simp only [State.HeadReady, State.AtHead]
  decide +kernel

/-- The same with a copy of one row of 4 bytes within core 0. -/
def copying (w : Nat) : State :=
  let s := headed (.f 0) w
  { s with mem := at_ 0 16 w ++ at_ 1024 64 0x500000000000000050000000100000000040000000100000000000000000000000000000000000000000000000000000000000000000000000000000000 ++ s.mem.filter fun c => 1024 ≤ c.1 }

/-- Its descriptor. -/
def copyOf (s : State) : CopyDesc := CopyDesc.ofNat (s.descNat (.f 0) (IWord.didx (s.head (.f 0))))

theorem test_meets_mcopy : let s : State := copying 0x50; let r : SRef := .f 0; s.HeadReady r OP_MCOPY ∧
    s.copiesInFlight (State.coreOf r) < 4 ∧ (copyOf s).rows = 1 ∧ s.ecc = [] ∧ (copyOf s).rowBytes = 4 ∧
    (∀ a ∈ [(s.copyEnds r (copyOf s)).1, (s.copyEnds r (copyOf s)).2], State.fabricPier a = s.pierId ∧ isPageWindow (State.fabricLocal a) = false ∧ fld a 63 60 = 0) ∧
    (∀ i < 4, s.reach .move false (State.fabricLocal (s.copyEnds r (copyOf s)).1 + i) = true ∧ s.reach .move true (State.fabricLocal (s.copyEnds r (copyOf s)).2 + i) = true) := by
  simp only [State.HeadReady, State.AtHead]
  decide +kernel

theorem test_meets_mfill : let s : State := copying 0x51; let r : SRef := .f 0; s.HeadReady r OP_MFILL ∧
    s.copiesInFlight (State.coreOf r) < 4 ∧ (copyOf s).rows = 1 ∧ (copyOf s).fillBytes = 4 ∧
    State.fabricPier (s.copyEnds r (copyOf s)).2 = s.pierId ∧ fld (s.copyEnds r (copyOf s)).2 63 60 = 0 ∧
    (∀ i < 4, s.reach .move true (State.fabricLocal (s.copyEnds r (copyOf s)).2 + i) = true) := by
  simp only [State.HeadReady, State.AtHead]
  decide +kernel

theorem test_meets_mbankread : let s : State := headed (.f 0) 0x52; let r : SRef := .f 0; s.HeadReady r OP_MBANKREAD ∧
    s.copiesInFlight (State.coreOf r) < 4 ∧ s.inDebug = false := by
  simp only [State.HeadReady, State.AtHead]
  decide +kernel
/-! ### Trestle and collectives -/

/-- Trestle unit 0 with a list of one job. -/
def trestling (w : Nat) (t : TrestleSt) : State := { working with
  job := { running := true, begun := [0] }, trestle := [(0, t)]
  mem := at_ TRESTLE_CTX 32 0x30000000000000000000000000000000000000000000000000 ++ at_ TRESTLE_JOBS 16 w }

theorem test_meets_trestle_off : State.reset.clusterRuns 0 = false ∧ working.clusterRuns 63 = true ∧ (working.trestleCtx 63).active = false := by decide +kernel

theorem test_meets_trestle : let s := trestling 0 {}; s.clusterRuns 0 = true ∧ s.job.running = true ∧ (s.trestleCtx 0).active = true ∧ (s.trestleStep 0).running = true ∧ s.clusterServed 0 = true ∧
    (s.trestleStep 0).pos < (s.trestleCtx 0).count ∧ s.entryReady (s.trestleJob 0 0) 0 = true ∧ (s.trestleJob 0 0).sigEn = false ∧ s.ecc = [] := by decide +kernel

theorem test_meets_trestle_waits : let s := trestling 0x4400000000000 {}; (s.trestleStep 0).running = true ∧ (s.trestleStep 0).pos < (s.trestleCtx 0).count ∧ s.entryReady (s.trestleJob 0 0) 0 = false := by decide +kernel

theorem test_meets_trestle_end : let s := trestling 0 { running := true, pos := 1 }; (s.trestleStep 0).running = true ∧ (s.trestleCtx 0).count ≤ (s.trestleStep 0).pos := by decide +kernel

/-- The collective engine with a list of one entry, whose descriptor is of a kind. -/
def collecting (kind : Nat) (k : CollSt) : State := { working with
  coll := k
  mem := at_ 0 32 0x40000000000080000c000000000000000000000000000000000000 ++ at_ 128 64 (kind * 2 ^ 508) }

theorem test_meets_coll_off : working.computing = true ∧ working.collCtx.active = false := by decide +kernel

theorem test_meets_coll_not_started : let s := collecting 1 {}; s.computing = true ∧ s.collCtx.active = true ∧ s.job.running = true ∧ (s.collList s.collCtx).started = false := by decide +kernel

theorem test_meets_coll_end : let s := collecting 1 { started := true, pos := 1 }; s.collCtx.count ≤ (s.collList s.collCtx).pos := by decide +kernel

theorem test_meets_coll_kind_0 : let s := collecting 0 { started := true }; let l := s.collList s.collCtx; l.started = true ∧ l.pos < s.collCtx.count ∧ s.entryReady (ListEntry.ofNat (s.nat s.collCtx.list 16)) l.step = true ∧ l.runs.length < 8 ∧
    (CollDesc.ofNat (s.nat s.collCtx.dbase 64)).kind = 0 := by decide +kernel

theorem test_meets_coll_kind_1 : let s := collecting 1 { started := true }; let l := s.collList s.collCtx; l.started = true ∧ l.pos < s.collCtx.count ∧ s.entryReady (ListEntry.ofNat (s.nat s.collCtx.list 16)) l.step = true ∧ l.runs.length < 8 ∧
    (CollDesc.ofNat (s.nat s.collCtx.dbase 64)).kind = 1 := by decide +kernel

theorem test_meets_coll_kind_9 : let s := collecting 9 { started := true }; let l := s.collList s.collCtx; l.started = true ∧ l.pos < s.collCtx.count ∧ s.entryReady (ListEntry.ofNat (s.nat s.collCtx.list 16)) l.step = true ∧ l.runs.length < 8 ∧
    (CollDesc.ofNat (s.nat s.collCtx.dbase 64)).kind = 9 := by decide +kernel

theorem test_meets_coll_kind_10 : let s := collecting 10 { started := true }; let l := s.collList s.collCtx; l.started = true ∧ l.pos < s.collCtx.count ∧ s.entryReady (ListEntry.ofNat (s.nat s.collCtx.list 16)) l.step = true ∧ l.runs.length < 8 ∧
    (CollDesc.ofNat (s.nat s.collCtx.dbase 64)).kind = 10 := by decide +kernel

/-- A collective in flight. -/
def runOf (kind : Nat) : CollRun := { coll := 3, desc := kind * 2 ^ 508, dbase := 128, step := 0 }

theorem test_meets_coll_none : working.computing = true ∧ working.coll.runs.find? (fun r => r.coll == 3) = none := by decide +kernel

theorem test_meets_rows_7 : let s := collecting 1 { runs := [runOf 7] }; s.coll.runs.find? (fun r => r.coll == 3) = some (runOf 7) ∧ (CollDesc.ofNat (runOf 7).desc).kind = 7 ∧ (runOf 7).waiting = [] ∧ 0 ∉ (runOf 7).landed ∧
    (s.expertPlace (CollDesc.ofNat (runOf 7).desc) 0).1 = (s.collGeo (CollDesc.ofNat (runOf 7).desc)).me := by decide +kernel

theorem test_meets_rows_9 : let s := collecting 1 { runs := [runOf 9] }; s.coll.runs.find? (fun r => r.coll == 3) = some (runOf 9) ∧ (CollDesc.ofNat (runOf 9).desc).kind = 9 ∧ (runOf 9).waiting = [] ∧ 0 ∉ (runOf 9).landed ∧
    (s.expertPlace (CollDesc.ofNat (runOf 9).desc) 0).1 = (s.collGeo (CollDesc.ofNat (runOf 9).desc)).me := by decide +kernel

theorem test_meets_rows_landed : 0 ∈ ({ runOf 7 with landed := [0] } : CollRun).landed := by decide +kernel

theorem test_meets_coll_more : (collecting 1 {}).collReceived { runOf 1 with waiting := [(1, .row 0 0 0)] } = false := by decide +kernel

theorem test_meets_coll_done : let s := collecting 1 { runs := [runOf 1] }; s.collReceived (runOf 1) = true ∧ s.collHeld (runOf 1) = false ∧ (runOf 1).op = none ∧ (ListEntry.ofNat (runOf 1).entry).sigEn = false := by decide +kernel

theorem test_meets_coll_signal : let s := collecting 1 { runs := [{ runOf 1 with entry := 2 ^ 48 }] }; let r := { runOf 1 with entry := 2 ^ 48 }; s.collReceived r = true ∧ s.collHeld r = false ∧ (ListEntry.ofNat r.entry).sigEn = true ∧ s.syncMode (State.resolveId false 0 0 0) = 0 := by decide +kernel

theorem test_meets_coll_operator : ({ runOf 1 with op := some 4 } : CollRun).op.isSome = true ∧ (collecting 1 {}).collReceived { runOf 1 with op := some 4 } = true ∧ (collecting 1 {}).collHeld { runOf 1 with op := some 4 } = false := by decide +kernel

/-! ### The gate -/

/-- The pier's step is begun. -/
def voting : State := { working with job := { working.job with begun := [0] } }

theorem test_meets_vote_not : working.computing = true ∧ working.voteReady = false := by decide +kernel

theorem test_meets_vote : voting.computing = true ∧ voting.voteReady = true ∧ voting.barrierHead = voting.pierId ∧ voting.job.decided < 2 ^ 64 ∧ voting.ownLeaf = some 0 := by decide +kernel

theorem test_meets_decide_not : voting.sys.boot = .ready ∧ voting.votesNow.length ≠ voting.barrierPiers.length ∧ (List.range voting.barrierPiers.length).filter (fun l => !voting.votesNow.any (·.leaf == l)) = [0] := by decide +kernel

theorem test_meets_decide : let s : State := { voting with gate := { votes := [(0, 0)] } }; s.job.running = true ∧ s.barrierHead = s.pierId ∧ s.gate.arrived = none ∧ s.votesNow.length = s.barrierPiers.length ∧
    (List.range s.barrierPiers.length).filter (fun l => !s.votesNow.any (·.leaf == l)) = [] := by decide +kernel

/-- barrier_span is span 0, of piers 0 and 1. -/
def paired2 : State := { voting with
  plan := { voting.plan with members := [0, 1], piers := [0, 1] }
  net := { voting.net with spanLists := [(0, [0x60000000, 0x60020000])] }
  mem := at_ SPAN_TABLE 64 0x60008000000000000000100000000000000000010000000000000000000000000000000000000000000000000000000000000000000000000000000000000 ++ at_ CAMBER_CTL 64 0x2000000000000000000000000000000000000000000000000000000000000000000000000000000000000
  gate := { votes := [(0, 0)] } }

theorem test_meets_vote_timeout : let s := paired2; s.job.running = true ∧ s.barrierHead = s.pierId ∧ s.gate.arrived = none ∧ s.votesNow ≠ [] ∧ (List.range s.barrierPiers.length).filter (fun l => !s.votesNow.any (·.leaf == l)) = [1] := by decide +kernel

theorem test_meets_outcomes : (gateFold 0 true 0 0 [] []).outcome = GO_PASS ∧ (gateFold 0 true 0 0 [] [(FB_NONFINITE_G, 0)]).outcome = GO_SKIP ∧ (gateFold 0 false 0 0 [] [(FB_NONFINITE_G, 0)]).outcome = GO_FAIL ∧
    (gateFold 0 true 0 0 [VoteRec.ofNat (2 ^ 420)] []).faults.testBit 0 = true := by decide +kernel

theorem test_meets_hang_not : let s := headed (.f 0) 0x72; s.runs (.f 0) = true ∧ (s.stream (.f 0)).phase = .ready := by decide +kernel

theorem test_meets_hang : let s := headed (.f 0) 0x72 { phase := .waitFence }; s.runs (.f 0) = true ∧ s.job.running = true ∧ (s.stream (.f 0)).phase = .waitFence := by decide +kernel

theorem test_meets_result_none : voting.sys.boot = .ready ∧ voting.gate.arrived = none ∧ voting.PlainBoundary := by
  simp only [State.PlainBoundary]
  decide +kernel

theorem test_meets_result_pass : let s : State := { voting with gate := { arrived := some 0x0 } }; s.sys.boot = .ready ∧ s.ownLeaf.isSome = true ∧ s.PlainBoundary ∧ s.job.running = true ∧ (GateRec.ofNat 0x0).step = s.job.decided ∧
    (GateRec.ofNat 0x0).attempt = min s.job.attempt 255 ∧ (GateRec.ofNat 0x0).outcome = 0 ∧ (GateRec.ofNat 0x0).attempt < 7 := by
  simp only [State.PlainBoundary]
  decide +kernel

theorem test_meets_result_skip : let s : State := { voting with gate := { arrived := some 0x40000000000000000000000000000000000000000000000000000000000000000000000000000000000000000000000000000000000000 } }; s.sys.boot = .ready ∧ s.ownLeaf.isSome = true ∧ s.PlainBoundary ∧ s.job.running = true ∧ (GateRec.ofNat 0x40000000000000000000000000000000000000000000000000000000000000000000000000000000000000000000000000000000000000).step = s.job.decided ∧
    (GateRec.ofNat 0x40000000000000000000000000000000000000000000000000000000000000000000000000000000000000000000000000000000000000).attempt = min s.job.attempt 255 ∧ (GateRec.ofNat 0x40000000000000000000000000000000000000000000000000000000000000000000000000000000000000000000000000000000000000).outcome = 1 ∧ (GateRec.ofNat 0x40000000000000000000000000000000000000000000000000000000000000000000000000000000000000000000000000000000000000).attempt < 7 := by
  simp only [State.PlainBoundary]
  decide +kernel

theorem test_meets_result_fail : let s : State := { voting with gate := { arrived := some 0x80000000000000000000000000000000000000000000000000000000000000000000000000000000000000000000000000000000000000 } }; s.sys.boot = .ready ∧ s.ownLeaf.isSome = true ∧ s.PlainBoundary ∧ s.job.running = true ∧ (GateRec.ofNat 0x80000000000000000000000000000000000000000000000000000000000000000000000000000000000000000000000000000000000000).step = s.job.decided ∧
    (GateRec.ofNat 0x80000000000000000000000000000000000000000000000000000000000000000000000000000000000000000000000000000000000000).attempt = min s.job.attempt 255 ∧ (GateRec.ofNat 0x80000000000000000000000000000000000000000000000000000000000000000000000000000000000000000000000000000000000000).outcome = 2 ∧ (GateRec.ofNat 0x80000000000000000000000000000000000000000000000000000000000000000000000000000000000000000000000000000000000000).attempt < 7 := by
  simp only [State.PlainBoundary]
  decide +kernel

theorem test_meets_result_stale : (GateRec.ofNat 0x10000000000000000000000000000000000000000000000000000000000000000000000000000000000000000000000000000000000000000).step ≠ voting.job.decided := by decide +kernel

/-! ### Generations -/

/-- A generation in progress. -/
def gen (g : GenRun) : State := { voting with falsework := { run := some g, verifying := true } }

theorem test_meets_gen_none : voting.computing = true ∧ voting.falsework.run = none ∧ voting.falsework.verifying = false ∧ voting.falsework.reshard = none := by decide +kernel

theorem test_meets_gen : let s := gen { step := 0, gen := 1, unread := [] }; s.falsework.run.isSome = true ∧ s.falsework.dispute = none := by decide +kernel

theorem test_meets_gen_done : (gen { step := 0, gen := 1, unread := [], localDone := true }).falsework.run.any (·.localDone) = true := by decide +kernel

theorem test_meets_verified_other : let s : State := { paired2 with pierId := 1, falsework := { verifying := true } }; s.computing = true ∧ s.falsework.verifying = true ∧ s.barrierHead ≠ s.pierId := by decide +kernel

theorem test_meets_verified : let s : State := { paired2 with falsework := { verifying := true } }; s.computing = true ∧ s.barrierHead = s.pierId ∧ 1 ∈ s.barrierPiers ∧ 1 ≠ s.pierId ∧ s.falsework.copies = [] := by decide +kernel

theorem test_meets_release_not : ¬ ((voting.stream (.u 0)).phase = .waitEngine) := by decide +kernel

theorem test_meets_release : let s : State := headed (.u 0) 0x91 { phase := .waitEngine }; s.computing = true ∧ s.falsework.run = none ∧ (s.stream (.u 0)).phase = .waitEngine ∧ IWord.opcode (s.head (.u 0)) = OP_UP2 ∧ IWord.didx (s.head (.u 0)) = 0 := by decide +kernel

theorem test_meets_release_read : let s : State := { headed (.u 0) 0x91 { phase := .ready, step := 2 } with falsework := { run := some { step := 0, gen := 1, unread := [(0, 0)] } } }; s.falsework.run = some { step := 0, gen := 1, unread := [(0, 0)] } ∧ s.up2Done 0 (0, 0) = true := by decide +kernel

/-- A buddy copy of shards without bytes is landing. -/
def landing (h : Nat) (e : Nat) (w : FalseSt) : State := { voting with mem := at_ DDR_BASE 64 h ++ at_ (DDR_BASE + 64) 64 e, falsework := w }

theorem test_meets_no_landing : voting.sys.boot = .ready ∧ voting.landingSlot = none := by decide +kernel

theorem test_meets_landing : let s := landing 0x46574b47000000000000000000000000000000000000000000000000000000000000000000000000000002400000000000000000000000000000000000000000 0xe3b0c44298fc1c149afbf4c8996fb92427ae41e4649b934ca495991b7852b8550000000000000000000000000000000000 {}; s.landingSlot = some DDR_BASE ∧ (s.genHeader DDR_BASE).shards = 2 ∧ beNat (sha256 (s.data (DDR_BASE + fld (s.nat (DDR_BASE + 64) 64) 415 392 * LOC) (fld (s.nat (DDR_BASE + 64) 64) 455 416))) = fld (s.nat (DDR_BASE + 64) 64) 391 136 ∧ (DDR_BASE, 1) ∉ s.falsework.landed := by decide +kernel

theorem test_meets_landing_last : let s := landing 0x46574b47000000000000000000000000000000000000000000000000000000000000000000000000000001400000000000000000000000000000000000000000 0xe3b0c44298fc1c149afbf4c8996fb92427ae41e4649b934ca495991b7852b8550000000000000000000000000000000000 {}; s.landingSlot = some DDR_BASE ∧ (s.genHeader DDR_BASE).shards = 1 ∧ 1 ≤ (s.genHeader DDR_BASE).shards := by decide +kernel

theorem test_meets_landing_bad : let s := landing 0x46574b47000000000000000000000000000000000000000000000000000000000000000000000000000001400000000000000000000000000000000000000000 0 {}; s.landingSlot = some DDR_BASE ∧ 0 < (s.genHeader DDR_BASE).shards ∧ ¬ beNat (sha256 (s.data (DDR_BASE + fld (s.nat (DDR_BASE + 64) 64) 415 392 * LOC) (fld (s.nat (DDR_BASE + 64) 64) 455 416))) = fld (s.nat (DDR_BASE + 64) 64) 391 136 ∧ aget s.falsework.resent (DDR_BASE, 0) 0 < 3 := by decide +kernel

theorem test_meets_landing_thrice : let s := landing 0x46574b47000000000000000000000000000000000000000000000000000000000000000000000000000001400000000000000000000000000000000000000000 0 { resent := [((DDR_BASE, 0), 3)] }; s.landingSlot = some DDR_BASE ∧ 3 ≤ aget s.falsework.resent (DDR_BASE, 0) 0 ∧ (DDR_BASE, 0) ∉ s.falsework.landed := by decide +kernel

theorem test_meets_landed : (DDR_BASE, 0) ∈ (landing 0 0 { landed := [(DDR_BASE, 0)] }).falsework.landed := by decide +kernel

theorem test_meets_reshard_stage : let s : State := { paired2 with falsework := { reshard := some (4, 0x80000000 * 2 ^ 476, RP_STAGE), reshardDone := [(0, RP_STAGE), (1, RP_STAGE)] } }; s.computing = true ∧ s.reshardPiers (CollDesc.ofNat (0x80000000 * 2 ^ 476)) = [0, 1] ∧ ∀ p ∈ s.reshardPiers (CollDesc.ofNat (0x80000000 * 2 ^ 476)), (p, RP_STAGE) ∈ s.falsework.reshardDone := by decide +kernel

theorem test_meets_reshard_install : let s : State := { paired2 with falsework := { reshard := some (4, 0x80000000 * 2 ^ 476, RP_INSTALL), reshardDone := [(0, RP_INSTALL), (1, RP_INSTALL)] } }; s.computing = true ∧ s.reshardPiers (CollDesc.ofNat (0x80000000 * 2 ^ 476)) = [0, 1] ∧ ∀ p ∈ s.reshardPiers (CollDesc.ofNat (0x80000000 * 2 ^ 476)), (p, RP_INSTALL) ∈ s.falsework.reshardDone := by decide +kernel

theorem test_meets_reshard_waits : let s : State := { paired2 with falsework := { reshard := some (4, 0x80000000 * 2 ^ 476, RP_STAGE), reshardDone := [(0, RP_STAGE)] } }; 1 ∈ s.reshardPiers (CollDesc.ofNat (0x80000000 * 2 ^ 476)) ∧ (1, RP_STAGE) ∉ s.falsework.reshardDone := by decide +kernel

/-! ### Pages -/

/-- Sequence slot 0 is open with one page, whose entry is given. -/
def paged (e : Nat) (p : PageSt := {}) : State := { working with pages := p, mem := at_ SLOT_DESC 64 0x20000000000200000000000000000000000000000000000000000000000000000000000000000000000000000000000000000000000000000000000000000 ++ at_ PAGE_POOL 8 e }

/-- Part 0 of the page and 4 bytes of HBM. -/
def part : PagePart := { win := PAGE_WINDOW, other := 0x20000, rows := 1, rowBytes := 4, stride := 4, row0 := 0 }

theorem test_meets_no_page : working.computing = true ∧ working.pageOk (PageName.ofAddr PAGE_WINDOW) = false ∧ part.pier = none ∧ part.rows = 1 ∧ (∀ i < 4, working.reach .move true (part.other + i) = true) := by decide +kernel

theorem test_meets_resident : let s := paged 0x8000000; s.pageOk (PageName.ofAddr PAGE_WINDOW) = true ∧ (PageName.ofAddr PAGE_WINDOW).part ≤ 4 ∧ (s.pageEntry 0).state = .resident ∧ (State.partRow (s.seqSlot 0).g12 0 0 0 4) = (0, 4) ∧ (∀ i < 4, s.mapped (State.frameAddr 1 + i) = true) := by decide +kernel

theorem test_meets_dropped : let s := paged 0x4000000000000000; s.pageOk (PageName.ofAddr PAGE_WINDOW) = true ∧ (s.pageEntry 0).state = .dropped := by decide +kernel

theorem test_meets_spilled : let s := paged 0x8800000000000000; s.pageOk (PageName.ofAddr PAGE_WINDOW) = true ∧ (s.pageEntry 0).state = .spilled := by decide +kernel

theorem test_meets_inward : let s := paged 0xe000000000000000; s.pageOk (PageName.ofAddr PAGE_WINDOW) = true ∧ (s.pageEntry 0).state = .flight ∧ (s.pageEntry 0).inward = true := by decide +kernel

theorem test_meets_lease_null : working.partHead PAGE_WINDOW = none := by decide +kernel

theorem test_meets_lease : let s := paged 0; s.partHead PAGE_WINDOW = some (0, 0, 0) ∧ s.leaseCount (0, 0, 0) = 0 ∧ (s.seqSlot 0).anchored = false ∧ (∀ i < 4, s.reach .move true (0x20000 + i) = true) ∧ s.pages.flights = [] := by decide +kernel

theorem test_meets_lease_full : let s := paged 0 { leases := [((0, 0, 0), 65535)] }; s.partHead PAGE_WINDOW = some (0, 0, 0) ∧ 65535 ≤ s.leaseCount (0, 0, 0) := by decide +kernel

theorem test_meets_clear_waits : let s := paged 0xc000000000000000 { flights := [{ entry := 0, out := true }] }; s.leaseCount (0, 0, 0) = 0 ∧ 0 ∈ State.headEntries (s.seqSlot 0) (0, 0, 0) ∧ ∃ x ∈ s.pages.flights, x.entry = 0 := by decide +kernel

theorem test_meets_spill : let s := paged 0xc000000000000000 { flights := [{ entry := 0, out := true, keep := false }] }; s.computing = true ∧ s.pages.waiting = [] ∧ s.pages.flights.find? (fun x => x.entry == 0 && x.out == true) = some { entry := 0, out := true, keep := false } := by decide +kernel

theorem test_meets_spill_kept : let s := paged 0xc000000000000000 { flights := [{ entry := 0, out := true, keep := true }] }; s.computing = true ∧ s.pages.waiting = [] ∧ s.pages.flights.find? (fun x => x.entry == 0 && x.out == true) = some { entry := 0, out := true, keep := true } := by decide +kernel

theorem test_meets_fetch : let s := paged 0xe000000010000000 { flights := [{ entry := 0, out := false, keep := false }] }; s.computing = true ∧ s.pages.waiting = [] ∧ s.pages.flights.find? (fun x => x.entry == 0 && x.out == false) = some { entry := 0, out := false, keep := false } := by decide +kernel

/-! ### Ageing, formats and windows -/

theorem test_meets_ageing : live.computing = true ∧ live.gate.underTest = none ∧ ({ live with gate := { underTest := some 3 } } : State).gate.underTest = some 3 := by decide +kernel

theorem test_meets_daily : let s : State := { live with age := { ro := [(67, [5])] } }; s.sys.boot = .ready ∧ (aget s.age.ro 67 []).length ≤ (aget s.age.ro 67 []).sum ∧ aget s.age.ro 67 [] ≠ [] := by decide +kernel

theorem test_meets_keystone : Elem.b1 ≠ .fp32 ∧ 1 < 2 ^ Elem.b1.bits ∧ (Elem.e4m3.keystone 0x38).exp ≠ 0 ∧ (Elem.e4m3.keystone 0x38).exp ≠ 1023 ∧ (Elem.e4m3.keystone 0).exp = 0 := by decide +kernel

theorem test_meets_windows : (∀ k < 8, ({ live with fp := { live.fp with coreBind := [(0, 5)] } } : State).coreServed k = live.coreServed k) ∧ live.coreServed 2047 = false ∧ live.clusterServed 63 = false ∧ coreBase 2047 ≤ coreBase 2047 := by decide +kernel
/-! ### Values worked out outside the model -/

theorem test_fp32_add_ties_to_even : fadd 0x3F800000#32 0x33800000#32 = 0x3F800000#32 ∧ fadd 0x3F800001#32 0x33800000#32 = 0x3F800002#32 := by decide +kernel

theorem test_fp32_third : fdiv 0x3F800000#32 0x40400000#32 = 0x3EAAAAAB#32 := by decide +kernel

theorem test_fp32_sqrt_two : fsqrt 0x40000000#32 = 0x3FB504F3#32 := by decide +kernel

/-- The published hash of no bytes. -/
theorem test_sha256_empty : beNat (sha256 []) = 0xe3b0c44298fc1c149afbf4c8996fb92427ae41e4649b934ca495991b7852b855 := by decide +kernel

/-- The published check value, over the digits 1 to 9. -/
theorem test_crc32c_check : crc32c (natBE 9 0x313233343536373839) = 0xE3069283 := by decide +kernel

/-- The published output of ten rounds for counter 0 and key 0. -/
theorem test_philox_zero : philox 0 0 = 0x9b00dbd8bc57ac4ce169c58d6627e8d5 := by decide +kernel

theorem test_elements : Elem.i4.decode 8 = .fin true 8 1 ∧ Elem.i8.decode 0x80 = .fin true 128 1 ∧ Elem.e4m3.decode 0x7F = .nan := by decide +kernel

/-- The worked example after R265: the columns of data bits 23 to 29. -/
theorem test_ecc_columns : (List.range 7).map (fun i => eccColumns.getD (23 + i) 0) = [73, 74, 76, 81, 82, 84, 88] := by decide +kernel

/-- The worked conversions to E4M3: 0.3, a tie, the top under both rules, and stochastic rounding on both sides of its byte. -/
theorem test_e4m3_conversions : (Elem.e4m3.narrow .rna false false 0 (.fin false 3 10)).code = 0x2A ∧ (Elem.e4m3.narrow .rna false false 0 (.fin false 17 16)).code = 0x39 ∧
    (Elem.e4m3.narrow .rne false false 0 (.fin false 17 16)).code = 0x38 ∧ (Elem.e4m3.narrow .rna false false 0 (.fin false 464 1)).code = 0x7E ∧
    (Elem.e4m3.narrow .rna true false 0 (.fin false 464 1)).code = 0x7F ∧ (Elem.e4m3.narrow .sr false false 0x2F (.fin false 133 128)).code = 0x39 ∧
    (Elem.e4m3.narrow .sr false false 0x50 (.fin false 133 128)).code = 0x38 := by decide +kernel

/-- The worked G12 pair, and the keystone of P4 code 5. -/
theorem test_g12_and_p4 : (Elem.g12.narrow .rna false false 0 (.fin true 3 4)).code = 0xBD0 ∧ (Elem.g12.narrow .rna false false 0 (.fin false 1000 1)).code = 0x51F ∧
    (Elem.g12.narrow .rne false false 0 (.fin false 1000 1)).code = 0x51E ∧ (Elem.p4.keystone 5).exp = 512 ∧ (Elem.p4.keystone 5).sig = 0xC00 := by decide +kernel

/-- The worked addresses: core slot 721's window, and piers (1, 2, 3) and (6, 7, 12). -/
theorem test_addresses : coreBase 721 = 0x05002D100000 ∧ torusId (1, 2, 3) = 401 ∧ torusId (6, 7, 12) = 1598 := by decide +kernel

end Sys2Proof.Tests
end

section
/-! PROOFS of O60: the windows of core and cluster memory (R30, R31). Each window is an interval of addresses that names
one slot; a hole reads as zero and takes no store (R33). -/

namespace Sys2Proof.Machine

/-! ### Windows and their slots -/

/-- Every address of a core window names the window's slot. -/
theorem coreSlotOf_eq {k a : Nat} (lo : coreBase k ≤ a) (hi : a < coreBase k + 0x100000) : coreSlotOf a = k := by
  simp only [coreBase, coreSlotOf] at *; omega

/-- Every address of a cluster window names the window's slot. -/
theorem clusterSlotOf_eq {c a : Nat} (lo : clusterBase c ≤ a) (hi : a < clusterBase c + 0x1000000) : clusterSlotOf a = c := by
  simp only [clusterBase, clusterSlotOf] at *; omega

/-- A core window is whole words. -/
theorem coreBase_le_word {k a : Nat} (lo : coreBase k ≤ a) : coreBase k ≤ a / 4 * 4 := by
  simp only [coreBase, CORE_BASE] at *; omega

/-- A cluster window is whole words. -/
theorem clusterBase_le_word {c a : Nat} (lo : clusterBase c ≤ a) : clusterBase c ≤ a / 4 * 4 := by
  simp only [clusterBase, CLUSTER_BASE] at *; omega

/-- The areas of the map lie one above the other: HBM, the DDR5 tier, 64 cluster windows, 2,048 core windows, descriptor space. -/
theorem areas_ordered : HBM_END ≤ DDR_BASE ∧ DDR_BASE ≤ CLUSTER_BASE ∧ CLUSTER_BASE + 64 * 0x1000000 ≤ CORE_BASE ∧
    CORE_BASE + 2048 * 0x100000 ≤ DESC_BASE := by decide

namespace State

/-! ### What is mapped -/

/-- In a core window, the populated part is mapped where the slot is served. -/
theorem mapped_core (s : State) {k a : Nat} (hk : k < 2048) (lo : coreBase k ≤ a) (hi : a < coreBase k + 0x100000) :
    s.mapped a = (decide (a % 0x100000 < 0x80000) && s.coreServed k) := by
  have slot := coreSlotOf_eq lo hi
  simp only [coreBase] at lo hi
  obtain ⟨hbmBelow, ddrBelow, clustersBelow, coresBelow⟩ := areas_ordered
  have notHbm : ¬ a < HBM_END := by omega
  have notDdr : ¬ a < CLUSTER_BASE := by omega
  have notCluster : ¬ a < CORE_BASE := by omega
  have core : a < DESC_BASE := by omega
  have inside : a < CORE_BASE + 2048 * 0x100000 := by omega
  simp only [mapped, notHbm, notDdr, notCluster, core, inside, slot, if_true, if_false, decide_true, Bool.true_and]

/-- In a cluster window, the populated part is mapped where the slot is served. -/
theorem mapped_cluster (s : State) {c a : Nat} (hc : c < 64) (lo : clusterBase c ≤ a) (hi : a < clusterBase c + 0x1000000) :
    s.mapped a = (decide (a % 0x1000000 < 0x800000) && s.clusterServed c) := by
  have slot := clusterSlotOf_eq lo hi
  simp only [clusterBase] at lo hi
  obtain ⟨hbmBelow, ddrBelow, clustersBelow, coresBelow⟩ := areas_ordered
  have notHbm : ¬ a < HBM_END := by omega
  have notDdr : ¬ a < CLUSTER_BASE := by omega
  have cluster : a < CORE_BASE := by omega
  have inside : a < CLUSTER_BASE + 64 * 0x1000000 := by omega
  simp only [mapped, notHbm, notDdr, cluster, inside, slot, if_true, if_false, decide_true, Bool.true_and]

/-- A core slot that nothing serves has no window. -/
theorem mapped_core_unserved {s : State} {k a : Nat} (hk : k < 2048) (unserved : s.coreServed k = false) (lo : coreBase k ≤ a)
    (hi : a < coreBase k + 0x100000) : s.mapped a = false := by
  rw [mapped_core s hk lo hi, unserved, Bool.and_false]

/-- A cluster slot that nothing serves has no window. -/
theorem mapped_cluster_unserved {s : State} {c a : Nat} (hc : c < 64) (unserved : s.clusterServed c = false)
    (lo : clusterBase c ≤ a) (hi : a < clusterBase c + 0x1000000) : s.mapped a = false := by
  rw [mapped_cluster s hc lo hi, unserved, Bool.and_false]

/-- What is mapped depends on a floor plan by the slots it serves, not by the units that serve them. -/
theorem mapped_withFp {s : State} {fp : FloorPlan} (cores : ∀ k, ({ s with fp := fp } : State).coreServed k = s.coreServed k)
    (clusters : ∀ c, ({ s with fp := fp } : State).clusterServed c = s.clusterServed c) (a : Nat) :
    ({ s with fp := fp } : State).mapped a = s.mapped a := by
  simp only [mapped, cores, clusters]

/-- No word's contents depend on the floor plan. -/
theorem word_withFp (s : State) (fp : FloorPlan) (a : Nat) : ({ s with fp := fp } : State).word a = s.word a := rfl

/-- A byte changes with the floor plan only where its being mapped does. -/
theorem byte_withFp {s : State} {fp : FloorPlan} {a : Nat} (h : ({ s with fp := fp } : State).mapped a = s.mapped a) :
    ({ s with fp := fp } : State).byte a = s.byte a := by
  simp only [byte, h, word_withFp]

/-! ### Holes -/

/-- A hole reads as zero without poison. -/
theorem byte_hole {s : State} {a : Nat} (hole : s.mapped a = false) : s.byte a = (0#8, false) := by
  simp [byte, hole]

/-- A store within a word that is a hole is discarded. -/
theorem writePart_hole {s : State} {a : Nat} (hole : s.mapped (a / 4 * 4) = false) (bs : List (Byte × Bool)) :
    s.writePart a bs = s := by
  simp [writePart, hole]

/-- A store is discarded where every word it meets is a hole. -/
theorem writeWords_hole {s : State} (f : Nat) {a : Nat} {bs : List (Byte × Bool)}
    (hole : ∀ x, a / 4 * 4 ≤ x → x < a + bs.length → s.mapped x = false) : writeWords f s a bs = s := by
  induction f generalizing a bs with
  | zero => cases bs <;> rfl
  | succ f ih =>
    cases bs with
    | nil => rfl
    | cons b bs =>
      have first : s.mapped (a / 4 * 4) = false := hole _ (Nat.le_refl _) (by rw [List.length_cons]; omega)
      simp only [writeWords, writePart_hole first]
      refine ih fun x lo hi => hole x (by omega) ?_
      rw [List.length_drop] at hi
      omega

/-- Holes discard what is stored to them (R33). -/
theorem write_hole {s : State} {a : Nat} {bs : List (Byte × Bool)}
    (hole : ∀ x, a / 4 * 4 ≤ x → x < a + bs.length → s.mapped x = false) : s.write a bs = s :=
  writeWords_hole _ hole

/-- Where an interval of whole words is all holes, each of its bytes reads as zero and takes no store. -/
theorem hole_interval {s : State} {a lo hi : Nat} (whole : lo ≤ a / 4 * 4) (below : a < hi)
    (hole : ∀ x, lo ≤ x → x < hi → s.mapped x = false) (b : Byte × Bool) : s.byte a = (0#8, false) ∧ s.write a [b] = s := by
  refine ⟨byte_hole (hole a (by omega) below), write_hole fun x first last => hole x (by omega) ?_⟩
  rw [List.length_singleton] at last
  omega

end State

/-- Settles O60. What is mapped, and so what a byte reads, asks the floor plan only whether a slot is served; every address of
a window names that window's slot, so the window of a slot that nothing serves is a hole, whose bytes read as zero and
take no store (R33). -/
theorem windowsFollowSlots : Obligations.WindowsFollowSlots := by
  unfold Obligations.WindowsFollowSlots
  refine ⟨fun s fp cores clusters a => ?_, fun s k a b => ⟨fun hk unserved lo hi => ?_, fun hk unserved lo hi => ?_⟩⟩
  · have same := State.mapped_withFp cores clusters a
    exact ⟨State.byte_withFp same, same⟩
  · exact State.hole_interval (coreBase_le_word lo) hi (fun _ => State.mapped_core_unserved hk unserved) b
  · exact State.hole_interval (clusterBase_le_word lo) hi (fun _ => State.mapped_cluster_unserved hk unserved) b

end Sys2Proof.Machine
end

section
/-! PROOFS of O59: block scales and the amax (R64, R66, R67). A quotient is compared with powers of two by `quotLe`; `log2Q` is
the exponent of the greatest one that is not above it, which MX takes, and FIT takes the least one that is not below it. -/

namespace Sys2Proof.Machine

/-! ### Quotients against powers of two -/

/-- n/d is at least 2^x: its inverse is at most the inverse power. -/
def powLeQuot (x : Int) (n d : Nat) : Prop := quotLe d n (1, -x)

/-- A power of two may be given by any two exponents with its own as their difference. -/
theorem quotLe_sub_iff (n d a b : Nat) : quotLe n d (1, (a : Int) - b) ↔ n * 2 ^ b ≤ 2 ^ a * d := by
  have ha : a = ((a : Int) - b).toNat + min a b := by omega
  have hb : b = (-((a : Int) - b)).toNat + min a b := by omega
  have right : 2 ^ a * d = 2 ^ ((a : Int) - b).toNat * d * 2 ^ min a b := by
    rw [Nat.mul_right_comm, ← Nat.pow_add, ← ha]
  have left : n * 2 ^ b = n * 2 ^ (-((a : Int) - b)).toNat * 2 ^ min a b := by
    rw [Nat.mul_assoc, ← Nat.pow_add, ← hb]
  rw [left, right, Nat.mul_le_mul_right_iff (Nat.two_pow_pos _)]
  simp only [quotLe, Nat.one_mul]

theorem powLeQuot_sub_iff (n d a b : Nat) : powLeQuot ((a : Int) - b) n d ↔ d * 2 ^ a ≤ 2 ^ b * n := by
  rw [powLeQuot, Int.neg_sub, quotLe_sub_iff]

/-- A quotient that is at least one power of two is above the power below it. -/
theorem not_quotLe_pred {n d : Nat} {x : Int} (hn : 0 < n) (h : powLeQuot x n d) : ¬ quotLe n d (1, x - 1) := by
  obtain ⟨a, b, rfl⟩ : ∃ a b : Nat, x = (a : Int) - b := ⟨x.toNat, (-x).toNat, (Int.toNat_sub_toNat_neg x).symm⟩
  have pred : (a : Int) - b - 1 = (a : Int) - (b + 1 : Nat) := by omega
  rw [pred, quotLe_sub_iff, Nat.pow_succ, ← Nat.mul_assoc, Nat.mul_comm (2 ^ a) d]
  rw [powLeQuot_sub_iff, Nat.mul_comm (2 ^ b) n] at h
  have pos : 0 < n * 2 ^ b := Nat.mul_pos hn (Nat.two_pow_pos b)
  omega

/-- `scaleQ` multiplies the numerator or the denominator by a power of two, and the other by 1. -/
theorem scaleQ_eq (n d : Nat) (e : Int) : scaleQ n d e = (n * 2 ^ (-e).toNat, d * 2 ^ e.toNat) := by
  unfold scaleQ
  split
  · next h => rw [Int.toNat_eq_zero.2 (by omega : -e ≤ 0), Nat.pow_zero, Nat.mul_one]
  · next h => rw [Int.toNat_eq_zero.2 (by omega : e ≤ 0), Nat.pow_zero, Nat.mul_one]

/-- The scaled quotient is at most 1 where the quotient is at most the power. -/
theorem scaleQ_le_iff (n d : Nat) (e : Int) : (scaleQ n d e).1 ≤ (scaleQ n d e).2 ↔ quotLe n d (1, e) := by
  simp only [scaleQ_eq, quotLe, Nat.one_mul, Nat.mul_comm d]

/-- The scaled quotient is at least 1 where the quotient is at least the power. -/
theorem le_scaleQ_iff (n d : Nat) (e : Int) : (scaleQ n d e).2 ≤ (scaleQ n d e).1 ↔ powLeQuot e n d := by
  simp only [scaleQ_eq, powLeQuot, quotLe, Nat.one_mul, Int.neg_neg, Nat.mul_comm n]

/-! ### The exponent of a quotient -/

/-- The bit lengths of two numbers place their quotient within a factor of two on either side. -/
theorem log2_sub_bounds {n d : Nat} (hn : 0 < n) (hd : 0 < d) :
    powLeQuot ((n.log2 : Int) - d.log2 - 1) n d ∧ ¬ powLeQuot ((n.log2 : Int) - d.log2 + 1) n d := by
  have nLo : 2 ^ n.log2 ≤ n := Nat.log2_self_le (Nat.ne_of_gt hn)
  have dLo : 2 ^ d.log2 ≤ d := Nat.log2_self_le (Nat.ne_of_gt hd)
  have nHi : n < 2 ^ (n.log2 + 1) := Nat.lt_log2_self
  have dHi : d < 2 ^ (d.log2 + 1) := Nat.lt_log2_self
  have pred : (n.log2 : Int) - d.log2 - 1 = (n.log2 : Int) - (d.log2 + 1 : Nat) := by omega
  have succ : (n.log2 : Int) - d.log2 + 1 = (n.log2 + 1 : Nat) - (d.log2 : Int) := by omega
  rw [pred, succ, powLeQuot_sub_iff, powLeQuot_sub_iff, Nat.not_le]
  exact ⟨Nat.mul_le_mul (Nat.le_of_lt dHi) nLo, Nat.mul_lt_mul_of_le_of_lt dLo nHi hd⟩

/-- `log2Q` starts from the difference of the bit lengths and lowers it by one where the quotient lies below that power. -/
theorem log2Q_eq_if (n d : Nat) : log2Q n d =
    if (scaleQ n d ((n.log2 : Int) - d.log2)).1 < (scaleQ n d ((n.log2 : Int) - d.log2)).2 then (n.log2 : Int) - d.log2 - 1
    else (n.log2 : Int) - d.log2 := by
  unfold log2Q scaleQ
  split
  · next h => simp only [h, if_true]
  · next h => simp only [h, if_false]

/-- `log2Q` is the exponent of the greatest power of two that is not above the quotient. -/
theorem log2Q_bounds {n d : Nat} (hn : 0 < n) (hd : 0 < d) : powLeQuot (log2Q n d) n d ∧ ¬ powLeQuot (log2Q n d + 1) n d := by
  obtain ⟨lo, hi⟩ := log2_sub_bounds hn hd
  rw [log2Q_eq_if]
  split
  · next below => exact ⟨lo, by rw [Int.sub_add_cancel, ← le_scaleQ_iff]; exact Nat.not_le.2 below⟩
  · next above => exact ⟨(le_scaleQ_iff n d _).1 (Nat.not_lt.1 above), hi⟩

/-- A quotient is at least a power of two or at most it. -/
theorem quotLe_of_not_powLeQuot {n d : Nat} {x : Int} (h : ¬ powLeQuot x n d) : quotLe n d (1, x) :=
  (scaleQ_le_iff n d x).1 (Nat.le_of_not_le (mt (le_scaleQ_iff n d x).1 h))

/-- The exponent that `blockScale` takes under FIT: the one of `log2Q` for a power of two, and one more for any other quotient. -/
def fitExponent (n d : Nat) : Int :=
  if (scaleQ n d (log2Q n d)).1 == (scaleQ n d (log2Q n d)).2 then log2Q n d else log2Q n d + 1

/-- `fitExponent` is the exponent of the least power of two that is not below the quotient. -/
theorem fitExponent_bounds {n d : Nat} (hn : 0 < n) (hd : 0 < d) :
    quotLe n d (1, fitExponent n d) ∧ ¬ quotLe n d (1, fitExponent n d - 1) := by
  obtain ⟨lo, hi⟩ := log2Q_bounds hn hd
  unfold fitExponent
  split
  · next power => exact ⟨(scaleQ_le_iff n d _).1 (Nat.le_of_eq (eq_of_beq power)), not_quotLe_pred hn lo⟩
  · next between =>
    refine ⟨quotLe_of_not_powLeQuot hi, fun atMost => between (beq_iff_eq.2 ?_)⟩
    rw [Int.add_sub_cancel] at atMost
    exact Nat.le_antisymm ((scaleQ_le_iff n d _).2 atMost) ((le_scaleQ_iff n d _).2 lo)

/-! ### UE8M0 block scales (R67) -/

theorem Elem.target_pos (e : Elem) : 0 < e.target.1 ∧ 0 < e.target.2.1 := by
  cases e <;> decide

/-- The exponent of the block scale of a block with amax n/d, before it is brought into range (R67). -/
def ue8m0Exponent (e : Elem) (mx : Bool) (n d : Nat) : Int :=
  if mx then log2Q n d - e.target.2.2 else fitExponent (n * e.target.2.1) (d * e.target.1)

/-- A zero block has the scale 1 (R67). -/
theorem blockScale_ue8m0_zero (e : Elem) (mx : Bool) (d : Nat) : blockScale .ue8m0 e mx 0 d = (0x7F, []) := rfl

/-- A block that is not zero has its exponent's scale, brought into range (R67). -/
theorem blockScale_ue8m0 (e : Elem) (mx : Bool) {n : Nat} (d : Nat) (hn : 0 < n) : blockScale .ue8m0 e mx n d =
    if ue8m0Exponent e mx n d < -127 then (0, [SCALE_UNDERFLOW])
    else if 127 < ue8m0Exponent e mx n d then (254, [SCALE_OVERFLOW]) else ((ue8m0Exponent e mx n d + 127).toNat, []) :=
  if_neg fun zero => Nat.ne_of_gt hn (eq_of_beq zero)

/-- Under FIT the scale is the least power of two that is not below a/Q. -/
theorem ue8m0Exponent_fit (e : Elem) {n d : Nat} (hn : 0 < n) (hd : 0 < d) :
    quotLe (n * e.target.2.1) (d * e.target.1) (1, ue8m0Exponent e false n d) ∧
    ¬ quotLe (n * e.target.2.1) (d * e.target.1) (1, ue8m0Exponent e false n d - 1) := by
  obtain ⟨qn, qd⟩ := e.target_pos
  exact fitExponent_bounds (Nat.mul_pos hn qd) (Nat.mul_pos hd qn)

/-- Under MX the scale times 2^emax is the greatest power of two that is not above a. -/
theorem ue8m0Exponent_mx (e : Elem) {n d : Nat} (hn : 0 < n) (hd : 0 < d) :
    powLeQuot (ue8m0Exponent e true n d + e.target.2.2) n d ∧ ¬ powLeQuot (ue8m0Exponent e true n d + e.target.2.2 + 1) n d := by
  have exponent : ue8m0Exponent e true n d + e.target.2.2 = log2Q n d := Int.sub_add_cancel _ _
  rw [exponent]
  exact log2Q_bounds hn hd

/-! ### The amax of a set (R64) -/

namespace Amax

/-- The magnitude of a is at most that of b. -/
def Le (a b : Amax) : Prop := a.n * b.d ≤ b.n * a.d

theorem Le.trans {a b c : Amax} (hb : 0 < b.d) (h : a.Le b) (k : b.Le c) : a.Le c := by
  refine Nat.le_of_mul_le_mul_right ?_ hb
  calc a.n * c.d * b.d = a.n * b.d * c.d := Nat.mul_right_comm ..
    _ ≤ b.n * a.d * c.d := Nat.mul_le_mul_right _ h
    _ = b.n * c.d * a.d := Nat.mul_right_comm ..
    _ ≤ c.n * b.d * a.d := Nat.mul_le_mul_right _ k
    _ = c.n * a.d * b.d := Nat.mul_right_comm ..

/-- A join has the magnitude of the larger of the two, and of the first where they are equal. -/
theorem join_cases (a b : Amax) : ((a.join b).n = a.n ∧ (a.join b).d = a.d ∧ b.Le a) ∨
    ((a.join b).n = b.n ∧ (a.join b).d = b.d ∧ a.Le b ∧ b.n ≠ 0) := by
  unfold join
  split
  · next h => exact .inr ⟨rfl, rfl, Nat.le_of_lt h, fun zero => by rw [zero, Nat.zero_mul] at h; exact Nat.not_lt_zero _ h⟩
  · next h => exact .inl ⟨rfl, rfl, Nat.le_of_not_lt h⟩

/-- A value that has a magnitude other than zero is finite, and has that magnitude. -/
theorem ofPV_nonzero {x : PV} (h : (ofPV x).n ≠ 0) : ∃ s, x = (.fin s (ofPV x).n (ofPV x).d, x.2) := by
  obtain ⟨v, p⟩ := x
  cases v with
  | nan => exact absurd rfl h
  | inf s => exact absurd rfl h
  | fin s n d => exact ⟨s, rfl⟩

/-- NaN and infinities stand as 0/1, so every value stands as a fraction where the finite ones are. -/
theorem ofPV_den_pos {x : PV} (h : ∀ s n d p, x = (.fin s n d, p) → 0 < d) : 0 < (ofPV x).d := by
  obtain ⟨v, p⟩ := x
  cases v with
  | nan => exact Nat.one_pos
  | inf s => exact Nat.one_pos
  | fin s n d => exact h s n d p rfl

/-- The magnitude is the largest of the list's finite members, 0 where there is none. -/
structure IsMax (a : Amax) (xs : List PV) : Prop where
  den_pos : 0 < a.d
  upper : ∀ x ∈ xs, (ofPV x).Le a
  attained : a.n = 0 ∨ ∃ s p, (Ext.fin s a.n a.d, p) ∈ xs

theorem isMax_nil : IsMax {} [] := ⟨Nat.one_pos, fun _ mem => absurd mem List.not_mem_nil, .inl rfl⟩

/-- Joining one more value keeps the maximum. -/
theorem IsMax.join {a : Amax} {xs : List PV} {x : PV} (h : IsMax a xs) (hx : 0 < (ofPV x).d) :
    IsMax (a.join (ofPV x)) (xs ++ [x]) := by
  obtain ⟨den, upper, attained⟩ := h
  have mem {y : PV} (hy : y ∈ xs ++ [x]) : y ∈ xs ∨ y = x := (List.mem_append.1 hy).imp_right List.mem_singleton.1
  obtain ⟨hn, hd, le⟩ | ⟨hn, hd, le, nonzero⟩ := join_cases a (ofPV x)
  · refine ⟨hd ▸ den, fun y hy => ?_, ?_⟩
    · rw [Le, hn, hd]
      obtain old | rfl := mem hy
      · exact upper y old
      · exact le
    · rw [hn, hd]
      exact attained.imp_right fun ⟨s, p, mem⟩ => ⟨s, p, List.mem_append_left _ mem⟩
  · refine ⟨hd ▸ hx, fun y hy => ?_, ?_⟩
    · rw [Le, hn, hd]
      obtain old | rfl := mem hy
      · exact (upper y old).trans den le
      · exact Nat.le_refl _
    · rw [hn, hd]
      obtain ⟨s, same⟩ := ofPV_nonzero nonzero
      exact .inr ⟨s, x.2, List.mem_append_right _ (List.mem_singleton.2 same.symm)⟩

/-- Joining the values of a list one by one keeps the maximum of all values seen. -/
theorem IsMax.foldl {a : Amax} {xs : List PV} (ys : List PV) (h : IsMax a xs) (pos : ∀ y ∈ ys, 0 < (ofPV y).d) :
    IsMax (ys.foldl (fun a x => a.join (ofPV x)) a) (xs ++ ys) := by
  induction ys generalizing a xs with
  | nil => rwa [List.append_nil]
  | cons y ys ih =>
    rw [List.append_cons]
    exact ih (h.join (pos y List.mem_cons_self)) fun z hz => pos z (List.mem_cons_of_mem _ hz)

end Amax

/-- The amax of a list is the maximum of its finite members (R64). -/
theorem amaxOf_isMax (xs : List PV) (pos : ∀ x ∈ xs, 0 < (Amax.ofPV x).d) : (amaxOf xs).IsMax xs :=
  Amax.isMax_nil.foldl xs pos

/-- Settles O59. Under FIT the exponent is that of the least power of two not below a/Q, under MX that of the greatest not above a, less
emax (R67); the amax is the maximum that a fold keeps from member to member (R64). -/
theorem blockScalesFit : Obligations.BlockScalesFit := by
  unfold Obligations.BlockScalesFit
  refine ⟨by decide, blockScale_ue8m0_zero, fun e mx n d hn hd => ⟨ue8m0Exponent e mx n d, ?_, ?_, blockScale_ue8m0 e mx d hn⟩,
    fun xs pos => ?_⟩
  · rintro rfl
    exact ue8m0Exponent_fit e hn hd
  · rintro rfl
    exact ue8m0Exponent_mx e hn hd
  · have den : ∀ x ∈ xs, 0 < (Amax.ofPV x).d := fun x hx => Amax.ofPV_den_pos fun s n d p same => pos s n d p (same ▸ hx)
    obtain ⟨-, upper, attained⟩ := amaxOf_isMax xs den
    exact ⟨fun s n d p mem => upper _ mem, attained⟩

end Sys2Proof.Machine
end

section
/-! PROOFS of O18: memory reads what is written (R33, R261 to R264). A store is cut into words; within a word it replaces
digits in base 256 of the word a read delivers, and a read takes one digit of it. -/

namespace Sys2Proof.Machine

/-! ### Digits in base 256 -/

/-- The residue of a number modulo a power of the base has the number's low digits. -/
theorem digit_mod_pow {j n : Nat} (x : Nat) (h : j < n) : x % 256 ^ n / 256 ^ j % 256 = x / 256 ^ j % 256 := by
  obtain ⟨d, rfl⟩ := Nat.exists_eq_add_of_lt h
  rw [show 256 ^ (j + d + 1) = 256 ^ j * (256 ^ d * 256) by rw [Nat.add_assoc, Nat.pow_add, Nat.pow_succ],
    Nat.mod_mul_right_div_self, Nat.mod_mul_left_mod]

theorem leNat_lt (bs : List Byte) : leNat bs < 256 ^ bs.length := by
  induction bs with
  | nil => exact Nat.one_pos
  | cons b bs ih =>
    rw [leNat, List.length_cons, Nat.pow_succ]
    have := b.isLt
    omega

/-- The digits of a little-endian number are its bytes. -/
theorem leNat_digit {bs : List Byte} {i : Nat} (h : i < bs.length) : leNat bs / 256 ^ i % 256 = bs[i].toNat := by
  induction bs generalizing i with
  | nil => exact absurd h (Nat.not_lt_zero i)
  | cons b bs ih =>
    have := b.isLt
    cases i with
    | zero => rw [leNat, List.getElem_cons_zero]; omega
    | succ i =>
      rw [leNat, List.getElem_cons_succ, ← ih (Nat.lt_of_succ_lt_succ h), Nat.pow_succ', ← Nat.div_div_eq_div_mul]
      congr 2
      omega

/-- A digit of a word is that of the number it holds. -/
theorem word_digit {j : Nat} (x : Nat) (h : j < 4) : BitVec.ofNat 8 ((BitVec.ofNat 32 x).toNat / 256 ^ j) = BitVec.ofNat 8 (x / 256 ^ j) :=
  BitVec.eq_of_toNat_eq (by rw [BitVec.toNat_ofNat, BitVec.toNat_ofNat, BitVec.toNat_ofNat]; exact digit_mod_pow x h)

/-! ### Tables -/

/-- A value set in a table is what its key reads. -/
theorem aget_aset_eq {α κ : Type} [DecidableEq κ] (l : List (κ × α)) (k : κ) (v d : α) : aget (aset l k v) k d = v := by
  induction l with
  | nil => simp [aset, aget]
  | cons c l ih =>
    by_cases here : c.1 = k
    · simp [aset, aget, here]
    · simp [aset, aget, here, ih]

/-! ### Words and the map -/

theorem word_lt_iff {a t : Nat} (h : t % 4 = 0) : a / 4 * 4 < t ↔ a < t := by omega

theorem clusterSlotOf_word (a : Nat) : clusterSlotOf (a / 4 * 4) = clusterSlotOf a := by
  simp only [clusterSlotOf, CLUSTER_BASE]; omega

theorem coreSlotOf_word (a : Nat) : coreSlotOf (a / 4 * 4) = coreSlotOf a := by
  simp only [coreSlotOf, CORE_BASE]; omega

theorem inRanges_word {rs : List (Nat × Nat)} (whole : ∀ r ∈ rs, r.1 % 4 = 0) {a : Nat} (h : inRanges rs a = true) :
    inRanges rs (a / 4 * 4) = true := by
  simp only [inRanges, List.any_eq_true, Bool.and_eq_true, decide_eq_true_eq] at h ⊢
  obtain ⟨r, mem, lo, hi⟩ := h
  have := whole r mem
  exact ⟨r, mem, by omega, by omega⟩

theorem descRanges_whole : ∀ r ∈ descRanges, r.1 % 4 = 0 := by decide

namespace State

/-- The word of a mapped byte is mapped. -/
theorem mapped_word {s : State} {a : Nat} (h : s.mapped a = true) : s.mapped (a / 4 * 4) = true := by
  simp only [mapped, word_lt_iff (t := HBM_END) rfl, word_lt_iff (t := CLUSTER_BASE) rfl, word_lt_iff (t := CORE_BASE) rfl,
    word_lt_iff (t := DESC_BASE) rfl, clusterSlotOf_word, coreSlotOf_word] at h ⊢
  by_cases hbm : a < HBM_END
  · rw [if_pos hbm]
  rw [if_neg hbm] at h ⊢
  by_cases ddr : a < CLUSTER_BASE
  · rw [if_pos ddr, Bool.and_eq_true, decide_eq_true_eq, decide_eq_true_eq] at h ⊢
    exact ⟨by simp only [DDR_BASE] at h ⊢; omega, by omega⟩
  rw [if_neg ddr] at h ⊢
  by_cases cluster : a < CORE_BASE
  · rw [if_pos cluster, Bool.and_eq_true, Bool.and_eq_true, decide_eq_true_eq, decide_eq_true_eq] at h ⊢
    exact h.imp_left fun ⟨inside, populated⟩ => ⟨by omega, by omega⟩
  rw [if_neg cluster] at h ⊢
  by_cases core : a < DESC_BASE
  · rw [if_pos core, Bool.and_eq_true, Bool.and_eq_true, decide_eq_true_eq, decide_eq_true_eq] at h ⊢
    exact h.imp_left fun ⟨inside, populated⟩ => ⟨by omega, by omega⟩
  rw [if_neg core] at h ⊢
  exact inRanges_word descRanges_whole h

/-- A mapped byte is a digit of its word, with the word's poison. -/
theorem byte_mapped {s : State} {a : Nat} (m : s.mapped a = true) :
    s.byte a = (BitVec.ofNat 8 ((s.word (a / 4 * 4)).1.toNat / 256 ^ (a % 4)), (s.word (a / 4 * 4)).2) := by
  simp only [byte, m, if_true]

/-! ### Merging -/

/-- Below the bytes merged in, a word keeps its digits. -/
theorem mergeBytes_digit_below {off j : Nat} (old : Nat) (bs : List Byte) (h : j < off) :
    mergeBytes old off bs / 256 ^ j % 256 = old / 256 ^ j % 256 := by
  have low : mergeBytes old off bs % 256 ^ off = old % 256 ^ off := by
    rw [mergeBytes, Nat.pow_add, ← Nat.mul_assoc, Nat.mul_right_comm, Nat.add_mul_mod_self_right, Nat.add_mul_mod_self_right,
      Nat.mod_mod]
  rw [← digit_mod_pow _ h, low, digit_mod_pow _ h]

/-- Without its digits below the offset, a merged word is the bytes merged in, below the old word's digits above them. -/
theorem mergeBytes_div (old off : Nat) (bs : List Byte) :
    mergeBytes old off bs / 256 ^ off = leNat bs + old / 256 ^ (off + bs.length) * 256 ^ bs.length := by
  have pos : 0 < 256 ^ off := Nat.pow_pos (by decide)
  rw [mergeBytes, Nat.pow_add, ← Nat.mul_assoc, Nat.mul_right_comm, Nat.add_mul_div_right _ _ pos, Nat.add_mul_div_right _ _ pos,
    Nat.div_eq_of_lt (Nat.mod_lt _ pos), Nat.zero_add]

/-- The bytes merged in are digits of the merged word. -/
theorem mergeBytes_digit_within {i : Nat} (old off : Nat) {bs : List Byte} (h : i < bs.length) :
    mergeBytes old off bs / 256 ^ (off + i) % 256 = bs[i].toNat := by
  rw [Nat.pow_add, ← Nat.div_div_eq_div_mul, mergeBytes_div, ← digit_mod_pow _ h, Nat.add_mul_mod_self_right, digit_mod_pow _ h,
    leNat_digit h]

/-- Above the bytes merged in, a word keeps its digits. -/
theorem mergeBytes_digit_above {off j : Nat} (old : Nat) {bs : List Byte} (h : off + bs.length ≤ j) :
    mergeBytes old off bs / 256 ^ j = old / 256 ^ j := by
  have high : mergeBytes old off bs / 256 ^ (off + bs.length) = old / 256 ^ (off + bs.length) := by
    have pos : 0 < 256 ^ bs.length := Nat.pow_pos (by decide)
    rw [Nat.pow_add, ← Nat.div_div_eq_div_mul, mergeBytes_div, Nat.add_mul_div_right _ _ pos, Nat.div_eq_of_lt (leNat_lt bs),
      Nat.zero_add, Nat.pow_add]
  obtain ⟨d, rfl⟩ := Nat.exists_eq_add_of_le h
  rw [Nat.pow_add 256 (off + _), ← Nat.div_div_eq_div_mul, high, Nat.div_div_eq_div_mul]

/-- Four bytes merged over a word are the whole of it. -/
theorem mergeBytes_whole {old : Nat} {bs : List Byte} (small : old < 256 ^ 4) (h : bs.length = 4) : mergeBytes old 0 bs = leNat bs := by
  rw [mergeBytes, h, Nat.div_eq_of_lt small, Nat.pow_zero, Nat.mod_one, Nat.zero_add, Nat.mul_one, Nat.zero_mul, Nat.add_zero]

/-! ### A store within one word -/

/-- What a store within a word leaves there: its bytes merged into the word, poisoned where one of them is, or where it is
less than the word and the word was poisoned. -/
theorem writePart_word_eq {s : State} {a : Nat} {bs : List (Byte × Bool)} (m : s.mapped (a / 4 * 4) = true)
    (fits : a % 4 + bs.length ≤ 4) : (s.writePart a bs).word (a / 4 * 4) =
      (BitVec.ofNat 32 (mergeBytes (s.word (a / 4 * 4)).1.toNat (a % 4) (bs.map (·.1))),
        bs.any (·.2) || (bs.length != 4 && (s.word (a / 4 * 4)).2)) := by
  by_cases whole : bs.length = 4
  · have start : a % 4 = 0 := by omega
    have merged := mergeBytes_whole (s.word (a / 4 * 4)).1.isLt ((List.length_map (·.1)).trans whole)
    simp [writePart, m, whole, word_setWord_eq, start, merged]
  · have part : (bs.length != 4) = true := bne_iff_ne.mpr whole
    simp [writePart, m, whole, part, word_setWord_eq]

/-- What a store within a word leaves in each byte of that word. -/
theorem writePart_byte_eq {s : State} {a b : Nat} {bs : List (Byte × Bool)} (m : s.mapped b = true) (same : b / 4 = a / 4)
    (fits : a % 4 + bs.length ≤ 4) : (s.writePart a bs).byte b =
      (BitVec.ofNat 8 (mergeBytes (s.word (a / 4 * 4)).1.toNat (a % 4) (bs.map (·.1)) / 256 ^ (b % 4)),
        bs.any (·.2) || (bs.length != 4 && (s.byte b).2)) := by
  have mw : s.mapped (a / 4 * 4) = true := same ▸ mapped_word m
  rw [byte_mapped ((s.writePart_mapped a bs b).trans m), byte_mapped m, same, writePart_word_eq mw fits, word_digit _ (by omega)]

/-- A store within a word is read back. -/
theorem writePart_byte_within {s : State} {a i : Nat} {bs : List (Byte × Bool)} (fits : a % 4 + bs.length ≤ 4)
    (h : i < bs.length) (m : s.mapped (a + i) = true) :
    ((s.writePart a bs).byte (a + i)).1 = bs[i].1 ∧ (bs[i].2 = true → ((s.writePart a bs).byte (a + i)).2 = true) := by
  rw [writePart_byte_eq m (by omega) fits, show (a + i) % 4 = a % 4 + i by omega]
  refine ⟨BitVec.eq_of_toNat_eq ?_, fun poison => ?_⟩
  · rw [BitVec.toNat_ofNat, mergeBytes_digit_within _ _ (by rwa [List.length_map]), List.getElem_map]
  · have any : bs.any (·.2) = true := List.any_eq_true.mpr ⟨bs[i], List.getElem_mem h, poison⟩
    simp only [any, Bool.true_or]

/-- A store within a word leaves every other word. -/
theorem writePart_byte_ne (s : State) {a b : Nat} (bs : List (Byte × Bool)) (h : b / 4 ≠ a / 4) :
    (s.writePart a bs).byte b = s.byte b := by
  unfold byte
  rw [writePart_mapped, writePart_word_ne _ _ _ _ (by omega) (by omega)]

/-- A store within a word leaves the data of every byte that is not its own. -/
theorem writePart_data_ne {s : State} {a b : Nat} {bs : List (Byte × Bool)} (fits : a % 4 + bs.length ≤ 4)
    (h : b < a ∨ a + bs.length ≤ b) : ((s.writePart a bs).byte b).1 = (s.byte b).1 := by
  cases m : s.mapped b with
  | false => rw [byte_hole ((s.writePart_mapped a bs b).trans m), byte_hole m]
  | true =>
    by_cases same : b / 4 = a / 4
    · rw [writePart_byte_eq m same fits, byte_mapped m, same]
      refine BitVec.eq_of_toNat_eq ?_
      rw [BitVec.toNat_ofNat, BitVec.toNat_ofNat]
      rcases h with below | above
      · exact mergeBytes_digit_below _ _ (by omega)
      · rw [mergeBytes_digit_above _ (by rw [List.length_map]; omega)]
    · rw [writePart_byte_ne s bs same]

@[simp] theorem counter_setWord (s : State) (a w : Nat) (p : Bool) (b : Bank) (i : Nat) :
    (s.setWord a w p).counter b i = s.counter b i := rfl

@[simp] theorem counter_bump_eq (s : State) (b : Bank) (i : Nat) : (s.bump b i).counter b i = hold32 (s.counter b i + 1) := by
  simp [bump, counter, aget_aset_eq]

/-- A merge into a poisoned word is counted (R264). -/
theorem writePart_rmwPoison {s : State} {a : Nat} {bs : List (Byte × Bool)} (m : s.mapped (a / 4 * 4) = true)
    (part : bs.length ≠ 4) :
    (s.writePart a bs).counter (s.memBank (a / 4 * 4)) RMW_POISON =
      if (s.word (a / 4 * 4)).2 then hold32 (s.counter (s.memBank (a / 4 * 4)) RMW_POISON + 1)
      else s.counter (s.memBank (a / 4 * 4)) RMW_POISON := by
  cases old : (s.word (a / 4 * 4)).2 <;> simp [writePart, m, part, old]

/-! ### A store word by word -/

@[simp] theorem writeWords_nil (f : Nat) (s : State) (a : Nat) : writeWords f s a [] = s := by
  cases f <;> rfl

theorem writeWords_cons (f : Nat) (s : State) (a : Nat) (b : Byte × Bool) (bs : List (Byte × Bool)) :
    writeWords (f + 1) s a (b :: bs) =
      writeWords f (s.writePart a ((b :: bs).take (4 - a % 4))) (a + (4 - a % 4)) ((b :: bs).drop (4 - a % 4)) := rfl

/-- The part of a store up to the end of its first word lies within that word. -/
theorem firstPart_fits (a : Nat) (bs : List (Byte × Bool)) : a % 4 + (bs.take (4 - a % 4)).length ≤ 4 := by
  rw [List.length_take]; omega

/-- A store that ends in its first word is a store within that word. -/
theorem write_within_word (s : State) {a : Nat} {bs : List (Byte × Bool)} (nonempty : 0 < bs.length) (fits : a % 4 + bs.length ≤ 4) :
    s.write a bs = s.writePart a bs := by
  have all : bs.length ≤ 4 - a % 4 := by omega
  cases bs with
  | nil => exact absurd nonempty (Nat.lt_irrefl 0)
  | cons b bs => rw [write, writeWords_cons, List.take_of_length_le all, List.drop_of_length_le all, writeWords_nil]

/-- A store leaves the data of every byte that is not its own. -/
theorem writeWords_data_ne (f : Nat) {s : State} {a b : Nat} {bs : List (Byte × Bool)} (h : b < a ∨ a + bs.length ≤ b) :
    ((writeWords f s a bs).byte b).1 = (s.byte b).1 := by
  induction f generalizing s a bs with
  | zero => rfl
  | succ f ih =>
    cases bs with
    | nil => rfl
    | cons c cs =>
      rw [writeWords_cons, ih (by rw [List.length_drop]; omega),
        writePart_data_ne (firstPart_fits a _) (by rw [List.length_take]; omega)]

theorem writeWords_byte_ne (f : Nat) (s : State) {a b : Nat} (bs : List (Byte × Bool))
    (h : b / 4 * 4 + 4 ≤ a ∨ a + bs.length ≤ b / 4 * 4) : (writeWords f s a bs).byte b = s.byte b := by
  unfold byte
  rw [writeWords_mapped, writeWords_word_ne _ _ _ _ _ (by omega) h]

/-- A store is read back: the words after the first leave the first part, and the first part leaves what is mapped. -/
theorem writeWords_byte_within {f : Nat} {s : State} {a i : Nat} {bs : List (Byte × Bool)} (fuel : bs.length ≤ f)
    (m : ∀ j < bs.length, s.mapped (a + j) = true) (h : i < bs.length) :
    ((writeWords f s a bs).byte (a + i)).1 = bs[i].1 ∧ (bs[i].2 = true → ((writeWords f s a bs).byte (a + i)).2 = true) := by
  induction f generalizing s a bs i with
  | zero => omega
  | succ f ih =>
    cases bs with
    | nil => exact absurd h (Nat.not_lt_zero i)
    | cons c cs =>
      rw [writeWords_cons]
      by_cases first : i < 4 - a % 4
      · have inside : i < ((c :: cs).take (4 - a % 4)).length := by rw [List.length_take]; omega
        rw [writeWords_byte_ne _ _ _ (by omega)]
        simpa only [List.getElem_take] using writePart_byte_within (firstPart_fits a _) inside (m i h)
      · obtain ⟨j, rfl⟩ := Nat.exists_eq_add_of_le (Nat.le_of_not_lt first)
        have inside : j < ((c :: cs).drop (4 - a % 4)).length := by rw [List.length_drop]; omega
        have rest : ∀ n < ((c :: cs).drop (4 - a % 4)).length,
            (s.writePart a ((c :: cs).take (4 - a % 4))).mapped (a + (4 - a % 4) + n) = true := fun n hn => by
          rw [List.length_drop] at hn
          rw [writePart_mapped, Nat.add_assoc]
          exact m _ (by omega)
        have fuel' : ((c :: cs).drop (4 - a % 4)).length ≤ f := by rw [List.length_drop]; omega
        simpa only [List.getElem_drop, Nat.add_assoc] using ih fuel' rest inside

end State

/-- Settles O18. A store is cut at the ends of words, and no part of it touches another part's word; so what holds of a store
within one word, where the merged word has the new bytes as digits and keeps the other digits of the word a read delivered
(R263, R264), holds of the whole. A hole reads as zero and takes no store (R33). -/
theorem memoryReadsWhatIsWritten : Obligations.MemoryReadsWhatIsWritten := by
  unfold Obligations.MemoryReadsWhatIsWritten
  refine ⟨fun s a bs m => ⟨fun i h => State.writeWords_byte_within (Nat.le_succ _) m h, s.write_byte_ne a bs,
    fun b => State.writeWords_data_ne _⟩, fun s a bs m nonempty => ⟨fun fits part => ?_, fun start whole i h => ?_⟩,
    fun s a bs hole => ⟨?_, State.write_hole fun x first last => ?_⟩⟩
  · rw [s.write_within_word nonempty fits]
    refine ⟨fun i h => (State.writePart_byte_within fits h (m _ (by omega))).1, fun b _ => State.writePart_data_ne fits,
      fun b same => ?_, ?_⟩
    · rw [State.writePart_byte_eq (m b same) same fits, State.byte_mapped (m b same), State.byte_mapped (m a rfl), same,
        bne_iff_ne.mpr (Nat.ne_of_lt part), Bool.true_and]
    · rw [State.writePart_rmwPoison (m _ (by omega)) (Nat.ne_of_lt part), State.byte_mapped (m a rfl)]
  · rw [s.write_within_word nonempty (by omega), State.writePart_byte_eq (m _ (by omega)) (by omega) (by omega)]
    simp [whole]
  · exact State.byte_hole (by have := hole (a % 4) (by omega); rwa [Nat.div_add_mod'] at this)
  · obtain ⟨i, rfl⟩ := Nat.exists_eq_add_of_le first
    exact hole i (by omega)

end Sys2Proof.Machine
end

section
/-! PROOFS of O22: the wear log (R382 to R384). The commands read the log, the fuses and memory after their own entry in the
command log and the clamps told; those change nothing else, so what the commands see is what stood before. Every entry goes in
by `wearPut`, so a log taken up is as long as the log may be and no longer. -/

namespace Sys2Proof.Machine

/-! ### What a command's start leaves -/

namespace State

/-- Parts that decide what a read of memory delivers. -/
def readParts : List Part := [.mem, .place, .tier, .fp]

theorem mapped_same {s t : State} (h : ∀ p ∈ readParts, p.same s t) (a : Nat) : t.mapped a = s.mapped a := by
  obtain ⟨ddr, -⟩ := h .tier (by decide)
  have fp : t.fp = s.fp := h .fp (by decide)
  have cores (k : Nat) : t.coreServed k = s.coreServed k := by simp only [coreServed, fp]
  have clusters (c : Nat) : t.clusterServed c = s.clusterServed c := by simp only [clusterServed, fp]
  simp only [mapped, ddr, cores, clusters]

theorem word_same {s t : State} (h : ∀ p ∈ readParts, p.same s t) (a : Nat) : t.word a = s.word a := by
  obtain ⟨mem, ecc⟩ := h .mem (by decide)
  have place : t.localGib = s.localGib := h .place (by decide)
  simp only [word, mem, ecc, place]

theorem byte_same {s t : State} (h : ∀ p ∈ readParts, p.same s t) (a : Nat) : t.byte a = s.byte a := by
  simp only [byte, mapped_same h, word_same h]

theorem bytes_same {s t : State} (h : ∀ p ∈ readParts, p.same s t) (a n : Nat) : t.bytes a n = s.bytes a n := by
  induction n generalizing a with
  | zero => rfl
  | succ n ih => simp only [bytes, byte_same h, ih]

theorem data_same {s t : State} (h : ∀ p ∈ readParts, p.same s t) (a n : Nat) : t.data a n = s.data a n :=
  congrArg (List.map Prod.fst) (bytes_same h a n)

theorem takeSeq_only (s : State) (c : HostCmd) (r : Bool) : Only [.host, .clamps] s (s.takeSeq c r) := by
  unfold takeSeq
  split
  · exact Only.refl _ s
  · intro p hp; cases p <;> simp [Part.same] at hp ⊢

theorem logAdd_only (s : State) (r : LogRec) : Only [.host, .clamps] s (s.logAdd r) := by
  intro p hp; cases p <;> simp [Part.same, logAdd] at hp ⊢

theorem report_only (s : State) (c : ClampRec) (cmd : Nat) : Only [.host, .clamps] s (s.report c cmd) := by
  intro p hp; cases p <;> simp [Part.same] at hp ⊢

theorem reports_only (s : State) (cs : List ClampRec) (cmd : Nat) : Only [.host, .clamps] s (s.reports cs cmd) := by
  induction cs generalizing s with
  | nil => exact Only.refl _ s
  | cons c cs ih => exact (s.report_only c cmd).trans (ih _)

theorem begin_only (s : State) (oc : Nat) (c : HostCmd) : Only [.host, .clamps] s (s.begin oc c) :=
  ((s.takeSeq_only c false).trans (logAdd_only _ _)).trans (reports_only _ _ _)

/-- A command's start and the clamps of its block told change the host's part and the clamp store alone. -/
theorem begin_told_only (s : State) (oc : Nat) (c : HostCmd) (x : Cmd) (fs : List Field) :
    Only [.host, .clamps] s ((s.begin oc c).told x fs) :=
  (s.begin_only oc c).trans (reports_only _ _ _)

/-! ### An entry put in the log (R383) -/

/-- A full log after it has made room: without its oldest TREND entry, or its oldest where none remains. -/
def roomMade (l : List WearRec) : List WearRec :=
  match l.findIdx? (·.event == WE_TREND) with
  | some i => l.eraseIdx i
  | none => l.drop 1

theorem roomMade_of_trend {a b : List WearRec} {x : WearRec} (hx : x.event = WE_TREND) (ha : ∀ y ∈ a, y.event ≠ WE_TREND) :
    roomMade (a ++ x :: b) = a ++ b := by
  have none : a.findIdx? (·.event == WE_TREND) = none := by simpa using ha
  have found : (a ++ x :: b).findIdx? (·.event == WE_TREND) = some a.length := by
    simp [List.findIdx?_append, none, List.findIdx?_cons, hx]
  simp [roomMade, found, List.eraseIdx_append_of_length_le]

theorem roomMade_of_no_trend {l : List WearRec} (h : ∀ y ∈ l, y.event ≠ WE_TREND) : roomMade l = l.drop 1 := by
  have none : l.findIdx? (·.event == WE_TREND) = none := by simpa using h
  rw [roomMade, none]

theorem length_roomMade (l : List WearRec) : (roomMade l).length = l.length - 1 := by
  unfold roomMade
  split
  · next i found =>
    obtain ⟨inside, -⟩ := List.findIdx?_eq_some_iff_getElem.mp found
    exact List.length_eraseIdx_of_lt inside
  · exact List.length_drop

theorem wearPut_below {s : State} (h : s.fw.wear.length < 65536) (w : WearRec) :
    s.wearPut w = { s with fw := { s.fw with wear := s.fw.wear ++ [w] } } := by
  simp [wearPut, Nat.not_le.mpr h]

theorem wearPut_full {s : State} (h : 65536 ≤ s.fw.wear.length) (w : WearRec) :
    s.wearPut w = { s with fw := { s.fw with wear := roomMade s.fw.wear ++ [w], wearDropped := hold32 (s.fw.wearDropped + 1) } } := by
  simp only [wearPut, ge_iff_le, h, if_true]
  rfl

/-- Entries put in a log change the log and its count of entries dropped, and keep it within its size. -/
theorem foldl_wearPut (ws : List WearRec) {s : State} (h : s.fw.wear.length ≤ 65536) :
    ∃ l n, l.length ≤ 65536 ∧ ws.foldl wearPut s = { s with fw := { s.fw with wear := l, wearDropped := n } } := by
  induction ws generalizing s with
  | nil => exact ⟨s.fw.wear, s.fw.wearDropped, h, rfl⟩
  | cons w ws ih =>
    rw [List.foldl_cons]
    rcases Nat.lt_or_ge s.fw.wear.length 65536 with below | full
    · rw [wearPut_below below]
      exact ih (by simp only [List.length_append, List.length_singleton]; omega)
    · rw [wearPut_full full]
      exact ih (by simp only [List.length_append, length_roomMade, List.length_singleton]; omega)

/-! ### The log written and handed back (R382, R384) -/

theorem wearBytes_same {s t : State} (fuses : t.fuses = s.fuses) (fw : t.fw = s.fw) : t.wearBytes = s.wearBytes := by
  simp only [wearBytes, fuses, fw]

/-- The first 64 bytes of a log as one number. -/
def logHead (bs : List Byte) : Nat := leNat (bs.take 64)

/-- The entries a log's header announces. -/
def logCount (bs : List Byte) : Nat := fld (logHead bs) 383 367

/-- The entries of a log, each 32 bytes, after its header. -/
def logEntries (bs : List Byte) : List WearRec := (List.range (logCount bs)).map fun i => WearRec.ofNat (leNat (slice bs (64 + 32 * i) 32))

/-- A log of this module: its serial number, no more entries than a log holds, and the signature over them. -/
abbrev Ours (s : State) (bs : List Byte) : Prop :=
  fld (logHead bs) 511 448 = s.fuses.serial % 2 ^ 64 ∧ logCount bs ≤ 65536 ∧
    slice bs (64 + 32 * logCount bs) 384 = logSignature (bs.take (64 + 32 * logCount bs))

theorem shiftLeft_lt_two_pow {x n : Nat} (h : x < 2 ^ n) (m : Nat) : x <<< m < 2 ^ (n + m) := by
  rw [Nat.shiftLeft_eq, Nat.pow_add]
  exact Nat.mul_lt_mul_of_pos_right h (Nat.two_pow_pos m)

/-- The fields of a log's header, packed above 335 zero bits. -/
theorem wearHeader_fields {a b c d e : Nat} (ha : a < 2 ^ 64) (hb : b < 2 ^ 32) (hc : c < 2 ^ 32) (hd : d < 2 ^ 17) (he : e < 2 ^ 32) :
    let h := a * 2 ^ 448 + b * 2 ^ 416 + c * 2 ^ 384 + d * 2 ^ 367 + e * 2 ^ 335
    h < 256 ^ 64 ∧ fld h 511 448 = a ∧ fld h 383 367 = d := by
  intro h
  have packed : h = (a * 2 ^ 113 + b * 2 ^ 81 + c * 2 ^ 49 + d * 2 ^ 32 + e) <<< 335 := by
    rw [Nat.shiftLeft_eq]
    simp only [h, Nat.add_mul, Nat.mul_assoc, ← Nat.pow_add, Nat.reduceAdd]
  have top : h >>> 335 = a * 2 ^ 113 + b * 2 ^ 81 + c * 2 ^ 49 + d * 2 ^ 32 + e := by
    rw [packed, Nat.shiftLeft_shiftRight]
  refine ⟨?_, ?_, ?_⟩
  · rw [packed]
    refine Nat.lt_of_lt_of_eq (shiftLeft_lt_two_pow (n := 177) (by omega) 335) ?_
    rw [show 256 = 2 ^ 8 from rfl, ← Nat.pow_mul, show 8 * 64 = 177 + 335 from rfl]
  · rw [fld, show 448 = 335 + 113 from rfl, Nat.shiftRight_add, top, Nat.shiftRight_eq_div_pow]
    omega
  · rw [fld, show 367 = 335 + 32 from rfl, Nat.shiftRight_add, top, Nat.shiftRight_eq_div_pow]
    omega

theorem length_wearEntries (ws : List WearRec) : (ws.flatMap fun w => natLE 32 w.toNat).length = 32 * ws.length := by
  induction ws with
  | nil => rfl
  | cons w ws ih => rw [List.flatMap_cons, List.length_append, natLE_length, ih, List.length_cons, Nat.mul_succ, Nat.add_comm]

/-- Some log does meet `Ours`, though the signature is a constant without a body: the log a module writes is its own. -/
theorem ours_wearBytes {s : State} (h : s.fw.wear.length ≤ 65536) : s.Ours s.wearBytes := by
  have parts : ∃ n es, s.wearBytes = natLE 64 n ++ es ++ logSignature (natLE 64 n ++ es) ∧ n < 256 ^ 64 ∧
      fld n 511 448 = s.fuses.serial % 2 ^ 64 ∧ fld n 383 367 = s.fw.wear.length ∧ es.length = 32 * s.fw.wear.length := by
    refine ⟨_, _, rfl, ?_⟩
    have dropped : hold32 s.fw.wearDropped < 2 ^ 32 := Nat.lt_of_le_of_lt (Nat.min_le_right _ _) (by decide)
    exact (wearHeader_fields (Nat.mod_lt _ (Nat.two_pow_pos 64)) (Nat.mod_lt _ (Nat.two_pow_pos 32)) (Nat.mod_lt _ (Nat.two_pow_pos 32))
      (Nat.mod_lt _ (Nat.two_pow_pos 17)) dropped).imp_right fun ⟨serial, count⟩ =>
        ⟨serial, count.trans (Nat.mod_eq_of_lt (by omega)), length_wearEntries _⟩
  obtain ⟨n, es, bytes, small, serial, count, size⟩ := parts
  have head : logHead s.wearBytes = n := by
    rw [logHead, bytes, List.append_assoc, List.take_left' (natLE_length 64 n), leNat_natLE, Nat.mod_eq_of_lt small]
  have entries : logCount s.wearBytes = s.fw.wear.length := by rw [logCount, head, count]
  have body : (natLE 64 n ++ es).length = 64 + 32 * s.fw.wear.length := by rw [List.length_append, natLE_length, size]
  refine ⟨by rw [head, serial], by rw [entries]; exact h, ?_⟩
  rw [entries, slice, bytes, List.drop_left' body, List.take_left' body]
  exact List.take_of_length_le (by simp [logSignature, natBE, natLE_length])

/-- A log taken up changes the firmware's part and the history of the sensors, and no other log is taken up after it. -/
theorem takeLog_spec (s : State) (h : Nat) (ws : List WearRec) :
    (s.takeLog h ws).fw.handedBack = true ∧ (s.takeLog h ws).fw.wearStart = fld h 415 384 + 1 ∧
    (s.takeLog h ws).fw.wear.length ≤ 65536 ∧ Only [.fw, .age] s (s.takeLog h ws) := by
  obtain ⟨l, n, short, e⟩ := foldl_wearPut
    ((ws.filter fun w => w.event != WE_HBM_ROW) ++ s.fw.wear.map fun w => { w with start := fld h 415 384 + 1 })
    (s := { s with
      fw := { s.fw with wear := [], wearStart := fld h 415 384 + 1, wearDropped := hold32 (s.fw.wearDropped + fld h 366 335), handedBack := true }
      age := { s.age with samples := trendSeed ws } }) (Nat.zero_le _)
  unfold takeLog
  simp only [e]
  refine ⟨trivial, trivial, short, fun p hp => ?_⟩
  cases p <;> simp [Part.same] at hp ⊢

/-- A log that is not this module's is what the command's test finds. -/
theorem not_ours_iff {s : State} {bs : List Byte} :
    (fld (logHead bs) 511 448 != s.fuses.serial % 2 ^ 64 || decide (logCount bs > 65536) ||
      slice bs (64 + 32 * logCount bs) 384 != logSignature (bs.take (64 + 32 * logCount bs))) = true ↔ ¬ s.Ours bs := by
  simp only [Ours, Bool.or_eq_true, bne_iff_ne, decide_eq_true_eq, Classical.not_and_iff_not_or_not, Nat.not_le, or_assoc, ne_eq, gt_iff_lt]

/-- What a log handed back comes to where its fields pass, by what stood before the command. -/
theorem handBackBody_fits {x : Cmd} {s b u : State} (told : b.told x (b.handBackFields x.v) = u) (fits : x.Fits (b.handBackFields x.v))
    (only : Only [.host, .clamps] s u) {bs : List Byte} (read : s.data (fld x.v 126 79) (fld x.v 78 51) = bs) :
    handBackBody x b =
      if s.plan.loaded = true ∨ s.fw.handedBack = true then { s := u, status := ST_STATE }
      else if ¬ s.Ours bs then { s := u, status := ST_AUTH }
      else { s := u.takeLog (logHead bs) (logEntries bs), status := ST_DONE } := by
  have data : u.data (fld x.v 126 79) (fld x.v 78 51) = bs :=
    (data_same (fun p hp => only p (by revert p; decide)) _ _).trans read
  have plan : u.plan = s.plan := only .plan (by decide)
  have fw : u.fw = s.fw := only .fw (by decide)
  have fuses : u.fuses = s.fuses := only .fuses (by decide)
  simp only [handBackBody, fieldsThen_fits fits, told, data, plan, fw, fuses]
  exact ite_congr (Bool.or_eq_true _ _) (fun _ => rfl) fun _ => ite_congr (propext not_ours_iff) (fun _ => rfl) fun _ => rfl

/-- A log read is written where the host asks, as it stood before the command. -/
theorem wearReadBody_fits {x : Cmd} {s b : State} (fits : x.Fits (b.wearReadFields x.v)) (only : Only [.host, .clamps] s b) :
    wearReadBody x b =
      { s := (b.told x (b.wearReadFields x.v)).hostPut (fld x.v 126 79) (s.wearBytes.take (fld x.v 78 51)), status := ST_DONE } := by
  simp only [wearReadBody, fieldsThen_fits fits, wearBytes_same (only .fuses (by decide)) (only .fw (by decide))]

end State

/-- Settles O22. The commands' own start changes nothing they read, so each answers by what stood before it; a log taken up
enters through `wearPut`, which makes room in a full log as R383 says. -/
theorem wearLog : Obligations.WearLog := by
  unfold Obligations.WearLog
  refine ⟨⟨?_, ?_⟩, fun s w => ⟨fun below => ?_, fun full => ?_⟩⟩
  · intro c s runs row x fs fits
    rw [← State.wearReadBody_fits fits (s.begin_only _ _)]
    exact State.actCommand_runs runs row _ _
  · intro c s runs row x fs u bs h m good fits
    have answer : exec (.wearlogHandBack c) s = .next (s.answered (.wearlogHandBack c) OC_WEARLOG c (State.handBackBody x (s.begin OC_WEARLOG c))) :=
      State.actCommand_runs runs row _ _
    rw [answer, State.handBackBody_fits (u := u) (bs := bs) rfl fits (s.begin_told_only _ _ _ _) rfl]
    refine ⟨fun late => ?_, fun plan handed (other : ¬ s.Ours bs) => ?_, fun plan handed (ours : s.Ours bs) =>
      ⟨u.takeLog h (State.logEntries bs), ?_, u.takeLog_spec _ _⟩⟩
    · rw [if_pos late]
    · rw [if_neg (by simp [plan, handed]), if_pos other]
    · rw [if_neg (by simp [plan, handed]), if_neg (not_not_intro ours)]
      rfl
  · rw [State.wearPut_below below]
    exact ⟨rfl, rfl⟩
  · rw [State.wearPut_full (Nat.le_of_eq full.symm)]
    refine ⟨?_, rfl, fun a x b split trend first => ?_, fun noTrend => ?_⟩
    · simp [State.length_roomMade, full]
    · simp only [split, State.roomMade_of_trend trend first]
    · simp only [State.roomMade_of_no_trend noTrend]

end Sys2Proof.Machine
end
